-- ==== Sys2Proof/Word.lean ====
section
/-! DEFINITION. Value types of the block (00_scope R8, R9): bytes, 16-bit integers, binary64 values as plain data. -/

namespace Sys2Proof

/-- `u8` of R9. -/
abbrev Byte := BitVec 8

/-- `u16` of R9. -/
abbrev U16 := BitVec 16

/-- A binary64 value of R9, unpacked: `fin neg m e` is `(-1)^neg * m * 2^e`.
A value produced by the operations of Machine/Float.lean is canonical: `m < 2^53`, and `2^52 <= m` unless `e = -1074`. -/
inductive F64 where
  | fin (neg : Bool) (m : Nat) (e : Int)
  | inf (neg : Bool)
  | nan
  deriving DecidableEq, Repr, Inhabited

/-- The signed 32-bit range of `i32` in R9, as a check on `Int`. -/
def inI32 (v : Int) : Bool := decide (-2147483648 ≤ v) && decide (v ≤ 2147483647)

end Sys2Proof
end

