-- ==== Sys2Proof/Machine/Rom.lean ====
section
/-! DEFINITION. The constant tables (10_state R51): zig-zag permutation, transform constants, the encoder's standard tables. -/

namespace Sys2Proof.Machine

/-- `ROM.ZIGZAG` (44_transform R155): the natural position of the `k`-th coefficient in zig-zag order. -/
def Rom.zigzag : List (Fin 64) :=
  [0, 1, 8, 16, 9, 2, 3, 10]
  ++ [17, 24, 32, 25, 18, 11, 4, 5]
  ++ [12, 19, 26, 33, 40, 48, 41, 34]
  ++ [27, 20, 13, 6, 7, 14, 21, 28]
  ++ [35, 42, 49, 56, 57, 50, 43, 36]
  ++ [29, 22, 15, 23, 30, 37, 44, 51]
  ++ [58, 59, 52, 45, 38, 31, 39, 46]
  ++ [53, 60, 61, 54, 47, 55, 62, 63]

/-- `ROM.ZIGZAG[k]`; the rules use it for `k` in 0..63 only. -/
def zigzagPos (k : Nat) : Fin 64 := Rom.zigzag.getD k 0

/-- `ROM.ALPHA[u]` (44_transform R156). -/
def Rom.alpha (u : Fin 8) : F64 :=
  if u = 0 then .fin false 0x16a09e667f3bcc (-54) else .fin false 0x10000000000000 (-53)

/-- The row `x = 0` of `ROM.COS` (44_transform R156). -/
def Rom.cosRow0 : Vector F64 8 :=
  #v[.fin false 0x10000000000000 (-52), .fin false 0x1f6297cff75cb0 (-53),
     .fin false 0x1d906bcf328d46 (-53), .fin false 0x1a9b66290ea1a3 (-53),
     .fin false 0x16a09e667f3bcd (-53), .fin false 0x11c73b39ae68c9 (-53),
     .fin false 0x187de2a6aea964 (-54), .fin false 0x18f8b83c69a60d (-55)]

/-- The row `x = 1` of `ROM.COS` (44_transform R156). -/
def Rom.cosRow1 : Vector F64 8 :=
  #v[.fin false 0x10000000000000 (-52), .fin false 0x1a9b66290ea1a3 (-53),
     .fin false 0x187de2a6aea964 (-54), .fin true 0x18f8b83c69a608 (-55),
     .fin true 0x16a09e667f3bcc (-53), .fin true 0x1f6297cff75cb0 (-53),
     .fin true 0x1d906bcf328d47 (-53), .fin true 0x11c73b39ae68c8 (-53)]

/-- The row `x = 2` of `ROM.COS` (44_transform R156). -/
def Rom.cosRow2 : Vector F64 8 :=
  #v[.fin false 0x10000000000000 (-52), .fin false 0x11c73b39ae68c9 (-53),
     .fin true 0x187de2a6aea962 (-54), .fin true 0x1f6297cff75cb0 (-53),
     .fin true 0x16a09e667f3bce (-53), .fin false 0x18f8b83c69a60c (-55),
     .fin false 0x1d906bcf328d44 (-53), .fin false 0x1a9b66290ea1a5 (-53)]

/-- The row `x = 3` of `ROM.COS` (44_transform R156). -/
def Rom.cosRow3 : Vector F64 8 :=
  #v[.fin false 0x10000000000000 (-52), .fin false 0x18f8b83c69a60d (-55),
     .fin true 0x1d906bcf328d46 (-53), .fin true 0x11c73b39ae68c8 (-53),
     .fin false 0x16a09e667f3bcb (-53), .fin false 0x1a9b66290ea1a5 (-53),
     .fin true 0x187de2a6aea965 (-54), .fin true 0x1f6297cff75cb2 (-53)]

/-- The row `x = 4` of `ROM.COS` (44_transform R156). -/
def Rom.cosRow4 : Vector F64 8 :=
  #v[.fin false 0x10000000000000 (-52), .fin true 0x18f8b83c69a608 (-55),
     .fin true 0x1d906bcf328d47 (-53), .fin false 0x11c73b39ae68c5 (-53),
     .fin false 0x16a09e667f3bce (-53), .fin true 0x1a9b66290ea1a2 (-53),
     .fin true 0x187de2a6aea971 (-54), .fin false 0x1f6297cff75cb0 (-53)]

/-- The row `x = 5` of `ROM.COS` (44_transform R156). -/
def Rom.cosRow5 : Vector F64 8 :=
  #v[.fin false 0x10000000000000 (-52), .fin true 0x11c73b39ae68c6 (-53),
     .fin true 0x187de2a6aea96d (-54), .fin false 0x1f6297cff75cb0 (-53),
     .fin true 0x16a09e667f3bc5 (-53), .fin true 0x18f8b83c69a602 (-55),
     .fin false 0x1d906bcf328d46 (-53), .fin true 0x1a9b66290ea1a1 (-53)]

/-- The row `x = 6` of `ROM.COS` (44_transform R156). -/
def Rom.cosRow6 : Vector F64 8 :=
  #v[.fin false 0x10000000000000 (-52), .fin true 0x1a9b66290ea1a4 (-53),
     .fin false 0x187de2a6aea967 (-54), .fin false 0x18f8b83c69a61d (-55),
     .fin true 0x16a09e667f3bc9 (-53), .fin false 0x1f6297cff75cb2 (-53),
     .fin true 0x1d906bcf328d43 (-53), .fin false 0x11c73b39ae68c2 (-53)]

/-- The row `x = 7` of `ROM.COS` (44_transform R156). -/
def Rom.cosRow7 : Vector F64 8 :=
  #v[.fin false 0x10000000000000 (-52), .fin true 0x1f6297cff75cb0 (-53),
     .fin false 0x1d906bcf328d44 (-53), .fin true 0x1a9b66290ea1a2 (-53),
     .fin false 0x16a09e667f3bc4 (-53), .fin true 0x11c73b39ae68c2 (-53),
     .fin false 0x187de2a6aea95f (-54), .fin true 0x18f8b83c69a616 (-55)]

/-- `ROM.COS[x][u]` (44_transform R156). -/
def Rom.cos (x u : Fin 8) : F64 :=
  match x with
  | 0 => Rom.cosRow0[u]
  | 1 => Rom.cosRow1[u]
  | 2 => Rom.cosRow2[u]
  | 3 => Rom.cosRow3[u]
  | 4 => Rom.cosRow4[u]
  | 5 => Rom.cosRow5[u]
  | 6 => Rom.cosRow6[u]
  | 7 => Rom.cosRow7[u]

/-- `ROM.STDQ`, luminance, natural order (45_encoder R173). -/
def Rom.stdQLum : List Byte :=
  [16, 11, 10, 16, 24, 40, 51, 61]
  ++ [12, 12, 14, 19, 26, 58, 60, 55]
  ++ [14, 13, 16, 24, 40, 57, 69, 56]
  ++ [14, 17, 22, 29, 51, 87, 80, 62]
  ++ [18, 22, 37, 56, 68, 109, 103, 77]
  ++ [24, 35, 55, 64, 81, 104, 113, 92]
  ++ [49, 64, 78, 87, 103, 121, 120, 101]
  ++ [72, 92, 95, 98, 112, 100, 103, 99]

/-- `ROM.STDQ`, chrominance, natural order (45_encoder R173). -/
def Rom.stdQChr : List Byte :=
  [17, 18, 24, 47, 99, 99, 99, 99]
  ++ [18, 21, 26, 66, 99, 99, 99, 99]
  ++ [24, 26, 56, 99, 99, 99, 99, 99]
  ++ [47, 66, 99, 99, 99, 99, 99, 99]
  ++ [99, 99, 99, 99, 99, 99, 99, 99]
  ++ [99, 99, 99, 99, 99, 99, 99, 99]
  ++ [99, 99, 99, 99, 99, 99, 99, 99]
  ++ [99, 99, 99, 99, 99, 99, 99, 99]

/-- The counts of the standard table (41_huffman R120). -/
def Rom.countsDcLum : Vector Byte 16 := #v[0, 1, 5, 1, 1, 1, 1, 1, 1, 0, 0, 0, 0, 0, 0, 0]

/-- The counts of the standard table (41_huffman R121). -/
def Rom.countsDcChr : Vector Byte 16 := #v[0, 3, 1, 1, 1, 1, 1, 1, 1, 1, 1, 0, 0, 0, 0, 0]

/-- The counts of the standard table (41_huffman R122). -/
def Rom.countsAcLum : Vector Byte 16 := #v[0, 2, 1, 3, 3, 2, 4, 3, 5, 5, 4, 4, 0, 0, 1, 125]

/-- The counts of the standard table (41_huffman R123). -/
def Rom.countsAcChr : Vector Byte 16 := #v[0, 2, 1, 2, 4, 4, 3, 4, 7, 5, 4, 4, 0, 1, 2, 119]

/-- The symbols of both standard DC tables (41_huffman R120, R121). -/
def Rom.symbolsDc : List Byte := [0x00, 0x01, 0x02, 0x03, 0x04, 0x05, 0x06, 0x07, 0x08, 0x09, 0x0A, 0x0B]

/-- The symbols of the standard table (41_huffman R122). -/
def Rom.symbolsAcLum : List Byte :=
  [0x01, 0x02, 0x03, 0x00, 0x04, 0x11, 0x05, 0x12, 0x21, 0x31, 0x41, 0x06, 0x13, 0x51, 0x61, 0x07]
  ++ [0x22, 0x71, 0x14, 0x32, 0x81, 0x91, 0xA1, 0x08, 0x23, 0x42, 0xB1, 0xC1, 0x15, 0x52, 0xD1, 0xF0]
  ++ [0x24, 0x33, 0x62, 0x72, 0x82, 0x09, 0x0A, 0x16, 0x17, 0x18, 0x19, 0x1A, 0x25, 0x26, 0x27, 0x28]
  ++ [0x29, 0x2A, 0x34, 0x35, 0x36, 0x37, 0x38, 0x39, 0x3A, 0x43, 0x44, 0x45, 0x46, 0x47, 0x48, 0x49]
  ++ [0x4A, 0x53, 0x54, 0x55, 0x56, 0x57, 0x58, 0x59, 0x5A, 0x63, 0x64, 0x65, 0x66, 0x67, 0x68, 0x69]
  ++ [0x6A, 0x73, 0x74, 0x75, 0x76, 0x77, 0x78, 0x79, 0x7A, 0x83, 0x84, 0x85, 0x86, 0x87, 0x88, 0x89]
  ++ [0x8A, 0x92, 0x93, 0x94, 0x95, 0x96, 0x97, 0x98, 0x99, 0x9A, 0xA2, 0xA3, 0xA4, 0xA5, 0xA6, 0xA7]
  ++ [0xA8, 0xA9, 0xAA, 0xB2, 0xB3, 0xB4, 0xB5, 0xB6, 0xB7, 0xB8, 0xB9, 0xBA, 0xC2, 0xC3, 0xC4, 0xC5]
  ++ [0xC6, 0xC7, 0xC8, 0xC9, 0xCA, 0xD2, 0xD3, 0xD4, 0xD5, 0xD6, 0xD7, 0xD8, 0xD9, 0xDA, 0xE1, 0xE2]
  ++ [0xE3, 0xE4, 0xE5, 0xE6, 0xE7, 0xE8, 0xE9, 0xEA, 0xF1, 0xF2, 0xF3, 0xF4, 0xF5, 0xF6, 0xF7, 0xF8]
  ++ [0xF9, 0xFA]

/-- The symbols of the standard table (41_huffman R123). -/
def Rom.symbolsAcChr : List Byte :=
  [0x00, 0x01, 0x02, 0x03, 0x11, 0x04, 0x05, 0x21, 0x31, 0x06, 0x12, 0x41, 0x51, 0x07, 0x61, 0x71]
  ++ [0x13, 0x22, 0x32, 0x81, 0x08, 0x14, 0x42, 0x91, 0xA1, 0xB1, 0xC1, 0x09, 0x23, 0x33, 0x52, 0xF0]
  ++ [0x15, 0x62, 0x72, 0xD1, 0x0A, 0x16, 0x24, 0x34, 0xE1, 0x25, 0xF1, 0x17, 0x18, 0x19, 0x1A, 0x26]
  ++ [0x27, 0x28, 0x29, 0x2A, 0x35, 0x36, 0x37, 0x38, 0x39, 0x3A, 0x43, 0x44, 0x45, 0x46, 0x47, 0x48]
  ++ [0x49, 0x4A, 0x53, 0x54, 0x55, 0x56, 0x57, 0x58, 0x59, 0x5A, 0x63, 0x64, 0x65, 0x66, 0x67, 0x68]
  ++ [0x69, 0x6A, 0x73, 0x74, 0x75, 0x76, 0x77, 0x78, 0x79, 0x7A, 0x82, 0x83, 0x84, 0x85, 0x86, 0x87]
  ++ [0x88, 0x89, 0x8A, 0x92, 0x93, 0x94, 0x95, 0x96, 0x97, 0x98, 0x99, 0x9A, 0xA2, 0xA3, 0xA4, 0xA5]
  ++ [0xA6, 0xA7, 0xA8, 0xA9, 0xAA, 0xB2, 0xB3, 0xB4, 0xB5, 0xB6, 0xB7, 0xB8, 0xB9, 0xBA, 0xC2, 0xC3]
  ++ [0xC4, 0xC5, 0xC6, 0xC7, 0xC8, 0xC9, 0xCA, 0xD2, 0xD3, 0xD4, 0xD5, 0xD6, 0xD7, 0xD8, 0xD9, 0xDA]
  ++ [0xE2, 0xE3, 0xE4, 0xE5, 0xE6, 0xE7, 0xE8, 0xE9, 0xEA, 0xF2, 0xF3, 0xF4, 0xF5, 0xF6, 0xF7, 0xF8]
  ++ [0xF9, 0xFA]

end Sys2Proof.Machine
end

