-- ==== Sys2Proof/Config.lean ====
section
/-! DEFINITION. What an implementation fixes (00_scope R7, 93_implementation_defined I1 to I7) and the free values the spec leaves open. -/

namespace Sys2Proof

/-- The rounding modes of R14; the values of `IDCT_ROUND` and `CC_ROUND`. -/
inductive RoundMode where
  | nearestAway
  | nearestEven
  | truncate
  deriving DecidableEq, Repr, Inhabited

/-- The values of `QUANT_ROUND` (R7). -/
inductive QuantRound where
  | nearestAway
  | nearestEven
  deriving DecidableEq, Repr, Inhabited

/-- The values of `IDCT_OVERFLOW` (R7). -/
inductive OverflowMode where
  | fault
  | saturate
  deriving DecidableEq, Repr, Inhabited

/-- The values of `DCT_IMPL` (R7, R165): the reference evaluation, or another pair of total functions,
which the model leaves free (`Config.otherInverseDct`, `Config.otherForwardDct`). -/
inductive DctImpl where
  | reference
  | other
  deriving DecidableEq, Repr, Inhabited

/-- The named arguments of the model (R7). State holds one record of them, which no rule writes. -/
structure Params where
  idctRound : RoundMode
  idctOverflow : OverflowMode
  dctImpl : DctImpl
  ccRound : RoundMode
  quantRound : QuantRound
  encRgbToYcbcr : Bool
  maxImageBytes : Nat
  deriving DecidableEq, Repr, Inhabited

/-- `MAX_IMAGE_BYTES` is OPEN with no default (R7, D31): a free value (log 7). -/
opaque Config.maxImageBytes : Nat

/-- The inverse transform of a `DCT_IMPL` other than the reference (R165): free (log 8). -/
opaque Config.otherInverseDct : Vector F64 64 → Vector F64 64

/-- The forward transform of a `DCT_IMPL` other than the reference (R165): free (log 8). -/
opaque Config.otherForwardDct : Vector F64 64 → Vector F64 64

/-- The conversion that `ENC_RGB_TO_YCBCR = true` needs and the source has no formula for (R183, D36): free (log 9). -/
opaque Config.rgbToYcbcr : Byte × Byte × Byte → Byte × Byte × Byte

/-- The integer that rounding an infinity or a NaN gives; R14 defines `round` on real values only: free (log 10). -/
opaque Config.roundNonFinite : RoundMode → F64 → Int

/-- The defaults of R7, with the free value for the parameter that has none. -/
def Params.default : Params where
  idctRound := .nearestAway
  idctOverflow := .fault
  dctImpl := .reference
  ccRound := .nearestAway
  quantRound := .nearestAway
  encRgbToYcbcr := false
  maxImageBytes := Config.maxImageBytes

end Sys2Proof
end

