-- ==== Sys2Proof/Machine/State.lean ====
section
/-! DEFINITION. The state of the block (10_state), the reasons a step can stop, and the state after reset (70_reset_and_hazards R212). -/

namespace Sys2Proof.Machine

/-- A byte space held as cells (offset, byte), offsets strictly rising; an offset that is not listed holds no value (log 4). -/
abbrev Memory := List Host.Cell

/-- `D.seg` (R20). -/
inductive Seg where
  | marker | dqt | dnl | dri | exp | sof | dht | dac | sos | scan | app0 | com | done | error
  deriving DecidableEq, Repr, Inhabited

/-- `D.sub` (R21). -/
inductive Sub where
  | magnitude | amplitude | endOfBlockCount
  deriving DecidableEq, Repr, Inhabited

/-- `D.mode` (R22): the coding process of the frame; `none` before any frame. -/
inductive Mode where
  | none | baseline | extended | progressive | lossless
  deriving DecidableEq, Repr, Inhabited

/-- The error codes of 60_exceptions R198. No rule raises `e27`. -/
inductive Err where
  | e1 | e2 | e3 | e4 | e5 | e6 | e7 | e8 | e9 | e10 | e11 | e12 | e13 | e14 | e15 | e16 | e17 | e18 | e19 | e20 | e21
  | e22 | e23 | e24 | e25 | e26 | e27 | e28 | e29 | e30 | e31 | e32 | e33 | e34 | e35 | e36 | e37 | e38 | e39 | e40 | e41
  deriving DecidableEq, Repr, Inhabited

/-- The encoder's refusals (60_exceptions R205), returned to the host by `encode()`. -/
inductive EncRefusal where
  | ef1 | ef2
  deriving DecidableEq, Repr, Inhabited

/-- `D.QT[t]` (R32), entries in natural order. -/
structure QTable where
  defined : Bool
  q : Vector Byte 64
  deriving DecidableEq, Repr, Inhabited

/-- One entry of a table's code list (R33). -/
structure HuffCode where
  symbol : Byte
  code : U16
  width : Nat
  deriving DecidableEq, Repr, Inhabited

/-- `D.HT[c][t]` (R33). `counts[l-1]` is the number of codes of length `l`. -/
structure HuffTable where
  defined : Bool
  counts : Vector Byte 16
  symbols : List Byte
  codes : List HuffCode
  lmax : Nat
  sentinel : Option (U16 × Nat)
  deriving DecidableEq, Repr, Inhabited

/-- `D.C[j]` (R35). -/
structure Component where
  id : Byte
  index : Nat
  h : Nat
  v : Nat
  tq : Fin 4
  td : Fin 4
  ta : Fin 4
  pred : Int
  du : Nat
  scratch : Vector Int 64
  deriving DecidableEq, Repr, Inhabited

/-- The pixel density of R41. -/
structure Density where
  unit : Byte
  x : U16
  y : U16
  deriving DecidableEq, Repr, Inhabited

/-- `D.img` once allocated (R40). `pix` is the byte space IMG. -/
structure Image where
  width : U16
  height : U16
  ncomp : Nat
  density : Density
  pix : Memory
  deriving DecidableEq, Repr, Inhabited

/-- What the completion event carries (46_host_interface R190). -/
inductive Completion where
  | image (img : Image)
  | error (e : Err)
  deriving DecidableEq, Repr, Inhabited

/-- The decoder's state `D` (R20 to R46), with the byte space IN (R54). -/
structure Decoder where
  seg : Seg
  sub : Sub
  mode : Mode
  sofCode : Byte
  pos : Nat
  avail : Nat
  eos : Bool
  input : Memory
  acc : Byte
  nbits : Nat
  k : Nat
  hcode : U16
  hwidth : Nat
  run : Nat
  mag : Nat
  amp : U16
  ampn : Nat
  qt : Vector QTable 4
  dcTables : Vector HuffTable 4
  acTables : Vector HuffTable 4
  framePresent : Bool
  precision : Byte
  height : U16
  width : U16
  nf : Nat
  hmax : Nat
  vmax : Nat
  mcux : Nat
  mcuy : Nat
  mcuTotal : Nat
  comps : List Component
  scanPresent : Bool
  ns : Nat
  order : List Nat
  ss : Byte
  se : Byte
  ah : BitVec 4
  al : BitVec 4
  scanComplete : Bool
  scanPos : Nat
  mcu : Nat
  img : Option Image
  density : Density
  jfifVersion : Option (Byte × Byte)
  comment : Option (List Byte)
  error : Option Err
  completed : Bool
  cancel : Bool
  deriving DecidableEq, Repr, Inhabited

/-- The source image `E.src` (R47); `pix` is the byte space SRC. -/
structure SrcImage where
  width : Nat
  height : Nat
  ncomp : Nat
  pix : List Byte
  deriving DecidableEq, Repr, Inhabited

/-- The encoder's state `E` (R47 to R50); `out` is the byte space OUT. -/
structure Encoder where
  src : SrcImage
  out : List Byte
  wacc : List Bool
  epred : Vector Int 4
  deriving DecidableEq, Repr, Inhabited

/-- `E.wn` (R49) is the length of `E.wacc`. -/
def Encoder.wn (e : Encoder) : Nat := e.wacc.length

/-- The operations a host can call (46_host_interface R185 to R193). -/
inductive HostOp where
  | construct
  | feed (bytes : List Byte) (eos : Bool)
  | cancel
  | getImage
  | getError
  | getComment
  | consumed
  | decodeSync (bytes : List Byte)
  | constructEncoder (img : SrcImage)
  | encode
  deriving DecidableEq, Repr, Inhabited

/-- What `Result()` returns (46_host_interface R188). -/
inductive FeedResult where
  | done (img : Option Image)
  | error (e : Option Err)
  | needMore (n : Nat)
  deriving DecidableEq, Repr, Inhabited

/-- The values the host's operations return (46_host_interface R188, R191, R193). -/
inductive Reply where
  | feed (r : FeedResult)
  | image (img : Option Image)
  | error (e : Option Err)
  | comment (c : Option (List Byte))
  | consumed (n : Nat)
  | encodeOk
  | encodeRefused (r : EncRefusal)
  deriving DecidableEq, Repr, Inhabited

/-- The host's side (the model's own fields, log 12): whether a Feed is running, the operations still to be performed,
the values returned, and the completion events delivered, each oldest first. -/
structure HostPort where
  running : Bool
  pending : List HostOp
  replies : List Reply
  events : List Completion
  deriving DecidableEq, Repr, Inhabited

/-- The whole state: the parameters (R7), the decoder, the encoder once constructed, and the host's side. -/
structure State where
  cfg : Params
  dec : Decoder
  enc : Option Encoder
  host : HostPort
  deriving DecidableEq, Repr, Inhabited

/-- Why a step stops: the model faults of 60_exceptions R197 (reading what no rule has written, 20_memory R62,
93_implementation_defined I8). No run from reset reaches one; each is safe. The errors E1 to E41 are next states, not faults. -/
inductive Fault where
  /-- Raised by the colour converter when it reads an IMG cell that no rule has written (R62). Safe. -/
  | unwrittenCell (offset : Nat)
  /-- Raised by placement at an offset outside IMG (R54). Safe. -/
  | imageRange (offset : Nat)
  /-- Raised by placement and by EOI when `D.img` is absent (R40). Safe. -/
  | noImage
  /-- Raised in `SCAN` when the scan descriptor names no component (R37, R38). Safe. -/
  | noComponent
  /-- Raised by a read of IN at an offset below `D.avail` that holds no byte (R54, R25). Safe. -/
  | inputHole (offset : Nat)
  /-- Raised in state `SOF` when `D.sof_code` is none of the four codes that lead there (R22). Safe. -/
  | noSofCode
  deriving DecidableEq, Repr, Inhabited

/-- Why a step has no meaning. -/
inductive Refusal where
  /-- Raised by `exec` for an instruction without a meaning. Safe. -/
  | notModelled (mnemonic : String)
  /-- Raised by the host operation `encode` when no encoder has been constructed: the spec has no such operation
  (46_host_interface R193; log 18). Safe. -/
  | noEncoder
  deriving DecidableEq, Repr, Inhabited

/-- A quantization table at reset (R32; log 2). -/
def QTable.reset : QTable where
  defined := false
  q := Vector.replicate 64 0

/-- A Huffman table at reset (R33; log 2). -/
def HuffTable.reset : HuffTable where
  defined := false
  counts := Vector.replicate 16 0
  symbols := []
  codes := []
  lmax := 0
  sentinel := none

/-- The decoder `Construct()` produces (R185, R212). The fields the spec calls unwritten hold zero (log 2). -/
def Decoder.reset : Decoder where
  seg := .marker
  sub := .magnitude
  mode := .none
  sofCode := 0
  pos := 0
  avail := 0
  eos := false
  input := []
  acc := 0
  nbits := 0
  k := 0
  hcode := 0
  hwidth := 0
  run := 0
  mag := 0
  amp := 0
  ampn := 0
  qt := Vector.replicate 4 QTable.reset
  dcTables := Vector.replicate 4 HuffTable.reset
  acTables := Vector.replicate 4 HuffTable.reset
  framePresent := false
  precision := 0
  height := 0
  width := 0
  nf := 0
  hmax := 0
  vmax := 0
  mcux := 0
  mcuy := 0
  mcuTotal := 0
  comps := []
  scanPresent := false
  ns := 0
  order := []
  ss := 0
  se := 0
  ah := 0
  al := 0
  scanComplete := false
  scanPos := 0
  mcu := 0
  img := none
  density := ⟨0, 1, 1⟩
  jfifVersion := none
  comment := none
  error := none
  completed := false
  cancel := false

/-- The host's side before any operation (log 12). -/
def HostPort.reset : HostPort where
  running := false
  pending := []
  replies := []
  events := []

/-- The machine right after reset: a constructed decoder (R212), no encoder yet (R214), the parameters at the defaults of R7. -/
def State.reset : State where
  cfg := Params.default
  dec := Decoder.reset
  enc := none
  host := HostPort.reset

end Sys2Proof.Machine
end

