-- ==== Sys2Proof/Machine/Huffman.lean ====
section
/-! DEFINITION. Canonical Huffman tables (41_huffman): construction, the decoder's lookup, the encoder's lookup, the standard tables. -/

namespace Sys2Proof.Machine

/-- The codes of one length `l`: `n` consecutive codes from `code` on for the next symbols, or none when the code space
is over-subscribed (R114). Answers the codes, the next code and the symbols left. -/
def assignLength (l : Nat) : Nat → Nat → List Byte → Option (List HuffCode × Nat × List Byte)
  | 0, code, syms => some ([], code, syms)
  | n + 1, code, syms =>
    if 2 ^ l ≤ code then none
    else
      match assignLength l n (code + 1) syms.tail with
      | none => none
      | some (cs, next, rest) => some (⟨syms.headD 0, BitVec.ofNat 16 code, l⟩ :: cs, next, rest)

/-- The codes of every length from `l` on (R114). -/
def assignCodes : Nat → List Byte → Nat → List Byte → Option (List HuffCode)
  | _, [], _, _ => some []
  | l, n :: counts, code, syms =>
    match assignLength l n.toNat code syms with
    | none => none
    | some (cs, next, rest) =>
      match assignCodes (l + 1) counts (next * 2) rest with
      | none => none
      | some more => some (cs ++ more)

/-- The largest length with a nonzero count, or 0 (R114); `l` is the length of the first count. -/
def longestLength : Nat → List Byte → Nat
  | _, [] => 0
  | l, n :: counts =>
    match longestLength (l + 1) counts with
    | 0 => if n = 0 then 0 else l
    | m => m

/-- The sentinel of a table whose longest length is `lmax` (R114, R115). -/
def sentinelOf (lmax : Nat) : Option (U16 × Nat) :=
  if lmax = 0 then none else some (BitVec.ofNat 16 (2 ^ lmax - 1), lmax)

/-- `HuffBuild` (R114) with the `defined` flag the DHT handler sets (40_segments R101); none is E15. -/
def huffBuild (counts : Vector Byte 16) (syms : List Byte) : Option HuffTable :=
  match assignCodes 1 counts.toList 0 syms with
  | none => none
  | some codes =>
    let lmax := longestLength 1 counts.toList
    some { defined := true, counts := counts, symbols := syms, codes := codes, lmax := lmax, sentinel := sentinelOf lmax }

/-- What one lookup answers (R117). -/
inductive HuffResult where
  | symbol (v : Byte)
  | more
  | error (e : Err)
  deriving DecidableEq, Repr

/-- The symbol of a (code, width) pair, if the table has one. -/
def lookupCode (t : HuffTable) (code : U16) (width : Nat) : Option Byte :=
  (t.codes.find? fun c => c.code == code && c.width == width).map (·.symbol)

/-- `HuffStep` (R117). -/
def huffStep (t : HuffTable) (code : U16) (width : Nat) : HuffResult :=
  if t.sentinel = some (code, width) then
    match lookupCode t code width with
    | some _ => .error .e41
    | none => .error .e32
  else
    match lookupCode t code width with
    | some v => .symbol v
    | none => if width = 16 then .error .e32 else .more

/-- `HuffEncode` (R118): the first code of a symbol value; none is EF2. -/
def huffEncode (t : HuffTable) (v : Nat) : Option (Nat × Nat) :=
  (t.codes.find? fun c => c.symbol.toNat == v).map fun c => (c.code.toNat, c.width)

/-- A standard table (R119): the build of counts that fit. -/
def stdTable (counts : Vector Byte 16) (syms : List Byte) : HuffTable := (huffBuild counts syms).getD HuffTable.reset

/-- `ROM.STDH_DC[sel]` (R120, R121). -/
def stdDc (sel : Nat) : HuffTable :=
  if sel = 0 then stdTable Rom.countsDcLum Rom.symbolsDc else stdTable Rom.countsDcChr Rom.symbolsDc

/-- `ROM.STDH_AC[sel]` (R122, R123). -/
def stdAc (sel : Nat) : HuffTable :=
  if sel = 0 then stdTable Rom.countsAcLum Rom.symbolsAcLum else stdTable Rom.countsAcChr Rom.symbolsAcChr

end Sys2Proof.Machine
end

