-- ==== Sys2Proof/Machine/Float.lean ====
section
/-! DEFINITION. IEEE 754 binary64 arithmetic, round to nearest even for every operation (00_scope R9), and `round` to integers (R14). -/

namespace Sys2Proof

/-- `m / 2^sh` rounded to nearest, ties to even. -/
def shiftNearestEven (m sh : Nat) : Nat :=
  if sh = 0 then m
  else
    let q := m >>> sh
    let r := m % 2 ^ sh
    let half := 2 ^ (sh - 1)
    if half < r ∨ (r = half ∧ q % 2 = 1) then q + 1 else q

/-- A canonical magnitude, or an infinity past the largest exponent. -/
def F64.pack (neg : Bool) (m : Nat) (e : Int) : F64 := if 971 < e then .inf neg else .fin neg m e

/-- The binary64 value nearest `(-1)^neg * m * 2^e`, ties to even, subnormals and overflow included. -/
def F64.ofScaled (neg : Bool) (m : Nat) (e : Int) : F64 :=
  if m = 0 then .fin neg 0 (-1074)
  else
    let e' := max (e + m.log2 - 52) (-1074)
    let m' := if e' ≤ e then m <<< (e - e').toNat else shiftNearestEven m (e' - e).toNat
    if m' = 2 ^ 53 then F64.pack neg (2 ^ 52) (e' + 1) else F64.pack neg m' e'

/-- `to_f64(i)` (00_scope R14). -/
def F64.ofInt (i : Int) : F64 := F64.ofScaled (decide (i < 0)) i.natAbs 0

/-- The value with its sign changed. -/
def F64.neg : F64 → F64
  | .fin n m e => .fin (!n) m e
  | .inf n => .inf (!n)
  | .nan => .nan

/-- A magnitude with its sign, as an integer. -/
def signed (neg : Bool) (m : Nat) : Int := if neg then -(m : Int) else m

/-- Addition (R9). -/
def F64.add : F64 → F64 → F64
  | .fin n1 m1 e1, .fin n2 m2 e2 =>
    let e := min e1 e2
    let sum := signed n1 (m1 <<< (e1 - e).toNat) + signed n2 (m2 <<< (e2 - e).toNat)
    if sum = 0 then .fin (n1 && n2) 0 (-1074) else F64.ofScaled (decide (sum < 0)) sum.natAbs e
  | .inf n1, .inf n2 => if n1 = n2 then .inf n1 else .nan
  | .inf n, .fin _ _ _ => .inf n
  | .fin _ _ _, .inf n => .inf n
  | .nan, _ => .nan
  | _, .nan => .nan

/-- Subtraction (R9). -/
def F64.sub (x y : F64) : F64 := F64.add x y.neg

/-- Multiplication (R9). -/
def F64.mul : F64 → F64 → F64
  | .fin n1 m1 e1, .fin n2 m2 e2 => F64.ofScaled (n1 ^^ n2) (m1 * m2) (e1 + e2)
  | .inf n1, .inf n2 => .inf (n1 ^^ n2)
  | .inf n1, .fin n2 m _ => if m = 0 then .nan else .inf (n1 ^^ n2)
  | .fin n1 m _, .inf n2 => if m = 0 then .nan else .inf (n1 ^^ n2)
  | .nan, _ => .nan
  | _, .nan => .nan

/-- Division (R9, 44_transform R163): the quotient to 120 extra bits with a sticky bit, then rounded once. -/
def F64.div : F64 → F64 → F64
  | .fin n1 m1 e1, .fin n2 m2 e2 =>
    if m2 = 0 then (if m1 = 0 then .nan else .inf (n1 ^^ n2))
    else
      let n := m1 <<< 120
      let sticky := if n % m2 = 0 then 0 else 1
      F64.ofScaled (n1 ^^ n2) (2 * (n / m2) + sticky) (e1 - e2 - 121)
  | .inf _, .inf _ => .nan
  | .inf n1, .fin n2 _ _ => .inf (n1 ^^ n2)
  | .fin n1 _ _, .inf n2 => .fin (n1 ^^ n2) 0 (-1074)
  | .nan, _ => .nan
  | _, .nan => .nan

/-- The integer nearest `m * 2^e` in the given mode (00_scope R14), for a magnitude. -/
def roundMagnitude (mode : RoundMode) (m : Nat) (e : Int) : Nat :=
  if 0 ≤ e then m <<< e.toNat
  else
    let sh := (-e).toNat
    match mode with
    | .nearestAway => (m + 2 ^ (sh - 1)) >>> sh
    | .nearestEven => shiftNearestEven m sh
    | .truncate => m >>> sh

/-- `round(mode, x)` (00_scope R14); on an infinity or a NaN a free value (log 10). -/
def F64.round (mode : RoundMode) : F64 → Int
  | .fin n m e => signed n (roundMagnitude mode m e)
  | .inf n => Config.roundNonFinite mode (.inf n)
  | .nan => Config.roundNonFinite mode .nan

end Sys2Proof
end

