-- ==== Sys2Proof/Syntax.lean ====
section
/-! DEFINITION. The instructions of the stream: one constructor per row of spec/opcode_table.json (30_encoding R69, R71, R83, R84). -/

namespace Sys2Proof

/-- The three formats of the opcode table. A marker is read in state `MARKER` (R70); an 8-bit symbol value is
a DC size symbol at coefficient index 0 and an AC run/size symbol otherwise (R88, R128). -/
inductive UnitKind where
  | marker
  | dcSymbol
  | acSymbol
  deriving DecidableEq, Repr, Inhabited

/-- One constructor per row. `code` and `value` are the whole code byte of a row that covers several codes,
`n` the low three bits of a restart marker, `r` the high and `sz` the low nibble of an AC symbol. -/
inductive Instr where
  /-- INVALID_00: marker 0x00 (R97). -/
  | invalid00
  /-- TEM: marker 0x01 (R97). -/
  | tem
  /-- RESERVED_02_03: marker 0x02 under mask 0xFE (R97). -/
  | reserved02_03 (code : Byte)
  /-- RESERVED_04_07: marker 0x04 under mask 0xFC (R97). -/
  | reserved04_07 (code : Byte)
  /-- RESERVED_08_0F: marker 0x08 under mask 0xF8 (R97). -/
  | reserved08_0F (code : Byte)
  /-- RESERVED_10_1F: marker 0x10 under mask 0xF0 (R97). -/
  | reserved10_1F (code : Byte)
  /-- RESERVED_20_3F: marker 0x20 under mask 0xE0 (R97). -/
  | reserved20_3F (code : Byte)
  /-- RESERVED_40_7F: marker 0x40 under mask 0xC0 (R97). -/
  | reserved40_7F (code : Byte)
  /-- RESERVED_80_BF: marker 0x80 under mask 0xC0 (R97). -/
  | reserved80_BF (code : Byte)
  /-- SOF0: marker 0xC0 (R99). -/
  | sof0
  /-- SOF1: marker 0xC1 (R99). -/
  | sof1
  /-- SOF2: marker 0xC2 (R99). -/
  | sof2
  /-- SOF3: marker 0xC3 (R99). -/
  | sof3
  /-- DHT: marker 0xC4 (R101). -/
  | dht
  /-- SOF5: marker 0xC5 (R97). -/
  | sof5
  /-- SOF6: marker 0xC6 (R97). -/
  | sof6
  /-- SOF7: marker 0xC7 (R97). -/
  | sof7
  /-- JPG: marker 0xC8 (R97). -/
  | jpg
  /-- SOF9: marker 0xC9 (R97). -/
  | sof9
  /-- SOF10: marker 0xCA (R97). -/
  | sof10
  /-- SOF11: marker 0xCB (R97). -/
  | sof11
  /-- DAC: marker 0xCC (R107). -/
  | dac
  /-- SOF13: marker 0xCD (R97). -/
  | sof13
  /-- SOF14: marker 0xCE (R97). -/
  | sof14
  /-- SOF15: marker 0xCF (R97). -/
  | sof15
  /-- RST: marker 0xD0 under mask 0xF8 (R97). -/
  | rst (n : BitVec 3)
  /-- SOI: marker 0xD8 (R94). -/
  | soi
  /-- EOI: marker 0xD9 (R95). -/
  | eoi
  /-- SOS: marker 0xDA (R102). -/
  | sos
  /-- DQT: marker 0xDB (R98). -/
  | dqt
  /-- DNL: marker 0xDC (R108). -/
  | dnl
  /-- DRI: marker 0xDD (R109). -/
  | dri
  /-- DHP: marker 0xDE (R97). -/
  | dhp
  /-- EXP: marker 0xDF (R110). -/
  | exp
  /-- APP0: marker 0xE0 (R104). -/
  | app0
  /-- APP1: marker 0xE1 (R97). -/
  | app1
  /-- APP2: marker 0xE2 (R97). -/
  | app2
  /-- APP3: marker 0xE3 (R97). -/
  | app3
  /-- APP4: marker 0xE4 (R97). -/
  | app4
  /-- APP5: marker 0xE5 (R97). -/
  | app5
  /-- APP6: marker 0xE6 (R97). -/
  | app6
  /-- APP7: marker 0xE7 (R97). -/
  | app7
  /-- APP8: marker 0xE8 (R97). -/
  | app8
  /-- APP9: marker 0xE9 (R97). -/
  | app9
  /-- APP10: marker 0xEA (R97). -/
  | app10
  /-- APP11: marker 0xEB (R97). -/
  | app11
  /-- APP12: marker 0xEC (R97). -/
  | app12
  /-- APP13: marker 0xED (R97). -/
  | app13
  /-- APP14: marker 0xEE (R97). -/
  | app14
  /-- APP15: marker 0xEF (R97). -/
  | app15
  /-- JPG0: marker 0xF0 (R97). -/
  | jpg0
  /-- JPG1: marker 0xF1 (R97). -/
  | jpg1
  /-- JPG2: marker 0xF2 (R97). -/
  | jpg2
  /-- JPG3: marker 0xF3 (R97). -/
  | jpg3
  /-- JPG4: marker 0xF4 (R97). -/
  | jpg4
  /-- JPG5: marker 0xF5 (R97). -/
  | jpg5
  /-- JPG6: marker 0xF6 (R97). -/
  | jpg6
  /-- JPG7: marker 0xF7 (R97). -/
  | jpg7
  /-- JPG8: marker 0xF8 (R97). -/
  | jpg8
  /-- JPG9: marker 0xF9 (R97). -/
  | jpg9
  /-- JPG10: marker 0xFA (R97). -/
  | jpg10
  /-- JPG11: marker 0xFB (R97). -/
  | jpg11
  /-- JPG12: marker 0xFC (R97). -/
  | jpg12
  /-- JPG13: marker 0xFD (R97). -/
  | jpg13
  /-- COM: marker 0xFE (R106). -/
  | com
  /-- FILL_FF: marker 0xFF (R97). -/
  | fillFF
  /-- DC_SIZE_0: DC symbol 0x00 (R129). -/
  | dcSize0
  /-- DC_SIZE_1: DC symbol 0x01 (R129). -/
  | dcSize1
  /-- DC_SIZE_2: DC symbol 0x02 (R129). -/
  | dcSize2
  /-- DC_SIZE_3: DC symbol 0x03 (R129). -/
  | dcSize3
  /-- DC_SIZE_4: DC symbol 0x04 (R129). -/
  | dcSize4
  /-- DC_SIZE_5: DC symbol 0x05 (R129). -/
  | dcSize5
  /-- DC_SIZE_6: DC symbol 0x06 (R129). -/
  | dcSize6
  /-- DC_SIZE_7: DC symbol 0x07 (R129). -/
  | dcSize7
  /-- DC_SIZE_8: DC symbol 0x08 (R129). -/
  | dcSize8
  /-- DC_SIZE_9: DC symbol 0x09 (R129). -/
  | dcSize9
  /-- DC_SIZE_10: DC symbol 0x0A (R129). -/
  | dcSize10
  /-- DC_SIZE_11: DC symbol 0x0B (R129). -/
  | dcSize11
  /-- DC_ILLEGAL_0C_0F: DC symbol 0x0C under mask 0xFC (R130). -/
  | dcIllegal0C_0F (value : Byte)
  /-- DC_ILLEGAL_10_1F: DC symbol 0x10 under mask 0xF0 (R130). -/
  | dcIllegal10_1F (value : Byte)
  /-- DC_ILLEGAL_20_3F: DC symbol 0x20 under mask 0xE0 (R130). -/
  | dcIllegal20_3F (value : Byte)
  /-- DC_ILLEGAL_40_7F: DC symbol 0x40 under mask 0xC0 (R130). -/
  | dcIllegal40_7F (value : Byte)
  /-- DC_ILLEGAL_80_FF: DC symbol 0x80 under mask 0x80 (R130). -/
  | dcIllegal80_FF (value : Byte)
  /-- AC_EOB: AC symbol 0x00 (R132). -/
  | acEob
  /-- AC_ZRL: AC symbol 0xF0 (R133). -/
  | acZrl
  /-- AC_EOBRUN_1: AC symbol 0x10 (R134). -/
  | acEobRun1
  /-- AC_EOBRUN_2: AC symbol 0x20 (R134). -/
  | acEobRun2
  /-- AC_EOBRUN_3: AC symbol 0x30 (R134). -/
  | acEobRun3
  /-- AC_EOBRUN_4: AC symbol 0x40 (R134). -/
  | acEobRun4
  /-- AC_EOBRUN_5: AC symbol 0x50 (R134). -/
  | acEobRun5
  /-- AC_EOBRUN_6: AC symbol 0x60 (R134). -/
  | acEobRun6
  /-- AC_EOBRUN_7: AC symbol 0x70 (R134). -/
  | acEobRun7
  /-- AC_EOBRUN_8: AC symbol 0x80 (R134). -/
  | acEobRun8
  /-- AC_EOBRUN_9: AC symbol 0x90 (R134). -/
  | acEobRun9
  /-- AC_EOBRUN_10: AC symbol 0xA0 (R134). -/
  | acEobRun10
  /-- AC_EOBRUN_11: AC symbol 0xB0 (R134). -/
  | acEobRun11
  /-- AC_EOBRUN_12: AC symbol 0xC0 (R134). -/
  | acEobRun12
  /-- AC_EOBRUN_13: AC symbol 0xD0 (R134). -/
  | acEobRun13
  /-- AC_EOBRUN_14: AC symbol 0xE0 (R134). -/
  | acEobRun14
  /-- AC_RUN_SIZE_1: AC symbol 0x01 under mask 0x0F (R131). -/
  | acRunSize1 (r : BitVec 4)
  /-- AC_RUN_SIZE_2: AC symbol 0x02 under mask 0x0F (R131). -/
  | acRunSize2 (r : BitVec 4)
  /-- AC_RUN_SIZE_3: AC symbol 0x03 under mask 0x0F (R131). -/
  | acRunSize3 (r : BitVec 4)
  /-- AC_RUN_SIZE_4: AC symbol 0x04 under mask 0x0F (R131). -/
  | acRunSize4 (r : BitVec 4)
  /-- AC_RUN_SIZE_5: AC symbol 0x05 under mask 0x0F (R131). -/
  | acRunSize5 (r : BitVec 4)
  /-- AC_RUN_SIZE_6: AC symbol 0x06 under mask 0x0F (R131). -/
  | acRunSize6 (r : BitVec 4)
  /-- AC_RUN_SIZE_7: AC symbol 0x07 under mask 0x0F (R131). -/
  | acRunSize7 (r : BitVec 4)
  /-- AC_RUN_SIZE_8: AC symbol 0x08 under mask 0x0F (R131). -/
  | acRunSize8 (r : BitVec 4)
  /-- AC_RUN_SIZE_9: AC symbol 0x09 under mask 0x0F (R131). -/
  | acRunSize9 (r : BitVec 4)
  /-- AC_RUN_SIZE_10: AC symbol 0x0A under mask 0x0F (R131). -/
  | acRunSize10 (r : BitVec 4)
  /-- AC_ILLEGAL_SIZE_11: AC symbol 0x0B under mask 0x0F (R135). -/
  | acIllegalSize11 (r : BitVec 4)
  /-- AC_ILLEGAL_SIZE_12_15: AC symbol 0x0C under mask 0x0C (R135). -/
  | acIllegalSize12_15 (r : BitVec 4) (sz : BitVec 4)
  deriving DecidableEq, Repr, Inhabited

/-- The format column of the opcode table. -/
def Instr.kind : Instr → UnitKind
  | .invalid00 => .marker
  | .tem => .marker
  | .reserved02_03 _ => .marker
  | .reserved04_07 _ => .marker
  | .reserved08_0F _ => .marker
  | .reserved10_1F _ => .marker
  | .reserved20_3F _ => .marker
  | .reserved40_7F _ => .marker
  | .reserved80_BF _ => .marker
  | .sof0 => .marker
  | .sof1 => .marker
  | .sof2 => .marker
  | .sof3 => .marker
  | .dht => .marker
  | .sof5 => .marker
  | .sof6 => .marker
  | .sof7 => .marker
  | .jpg => .marker
  | .sof9 => .marker
  | .sof10 => .marker
  | .sof11 => .marker
  | .dac => .marker
  | .sof13 => .marker
  | .sof14 => .marker
  | .sof15 => .marker
  | .rst _ => .marker
  | .soi => .marker
  | .eoi => .marker
  | .sos => .marker
  | .dqt => .marker
  | .dnl => .marker
  | .dri => .marker
  | .dhp => .marker
  | .exp => .marker
  | .app0 => .marker
  | .app1 => .marker
  | .app2 => .marker
  | .app3 => .marker
  | .app4 => .marker
  | .app5 => .marker
  | .app6 => .marker
  | .app7 => .marker
  | .app8 => .marker
  | .app9 => .marker
  | .app10 => .marker
  | .app11 => .marker
  | .app12 => .marker
  | .app13 => .marker
  | .app14 => .marker
  | .app15 => .marker
  | .jpg0 => .marker
  | .jpg1 => .marker
  | .jpg2 => .marker
  | .jpg3 => .marker
  | .jpg4 => .marker
  | .jpg5 => .marker
  | .jpg6 => .marker
  | .jpg7 => .marker
  | .jpg8 => .marker
  | .jpg9 => .marker
  | .jpg10 => .marker
  | .jpg11 => .marker
  | .jpg12 => .marker
  | .jpg13 => .marker
  | .com => .marker
  | .fillFF => .marker
  | .dcSize0 => .dcSymbol
  | .dcSize1 => .dcSymbol
  | .dcSize2 => .dcSymbol
  | .dcSize3 => .dcSymbol
  | .dcSize4 => .dcSymbol
  | .dcSize5 => .dcSymbol
  | .dcSize6 => .dcSymbol
  | .dcSize7 => .dcSymbol
  | .dcSize8 => .dcSymbol
  | .dcSize9 => .dcSymbol
  | .dcSize10 => .dcSymbol
  | .dcSize11 => .dcSymbol
  | .dcIllegal0C_0F _ => .dcSymbol
  | .dcIllegal10_1F _ => .dcSymbol
  | .dcIllegal20_3F _ => .dcSymbol
  | .dcIllegal40_7F _ => .dcSymbol
  | .dcIllegal80_FF _ => .dcSymbol
  | .acEob => .acSymbol
  | .acZrl => .acSymbol
  | .acEobRun1 => .acSymbol
  | .acEobRun2 => .acSymbol
  | .acEobRun3 => .acSymbol
  | .acEobRun4 => .acSymbol
  | .acEobRun5 => .acSymbol
  | .acEobRun6 => .acSymbol
  | .acEobRun7 => .acSymbol
  | .acEobRun8 => .acSymbol
  | .acEobRun9 => .acSymbol
  | .acEobRun10 => .acSymbol
  | .acEobRun11 => .acSymbol
  | .acEobRun12 => .acSymbol
  | .acEobRun13 => .acSymbol
  | .acEobRun14 => .acSymbol
  | .acRunSize1 _ => .acSymbol
  | .acRunSize2 _ => .acSymbol
  | .acRunSize3 _ => .acSymbol
  | .acRunSize4 _ => .acSymbol
  | .acRunSize5 _ => .acSymbol
  | .acRunSize6 _ => .acSymbol
  | .acRunSize7 _ => .acSymbol
  | .acRunSize8 _ => .acSymbol
  | .acRunSize9 _ => .acSymbol
  | .acRunSize10 _ => .acSymbol
  | .acIllegalSize11 _ => .acSymbol
  | .acIllegalSize12_15 _ _ => .acSymbol

end Sys2Proof
end

