-- ==== Sys2Proof/WellFormed.lean ====
section
/-! DEFINITION. Well-formed instructions: an operand that holds a whole code byte lies in its row (30_encoding R71, R83, R84). -/

namespace Sys2Proof

/-- `c` agrees with `bits` on the bits of `mask`: the table's match and mask. -/
def codeFits (mask bits c : Byte) : Bool := c &&& mask == bits

/-- The operand checks of each row; a row without a free bit, or whose free bits are exactly its operands, has none. -/
def Instr.wellFormed : Instr → Bool
  | .invalid00 => true
  | .tem => true
  | .reserved02_03 code => codeFits 0xFE 0x02 code
  | .reserved04_07 code => codeFits 0xFC 0x04 code
  | .reserved08_0F code => codeFits 0xF8 0x08 code
  | .reserved10_1F code => codeFits 0xF0 0x10 code
  | .reserved20_3F code => codeFits 0xE0 0x20 code
  | .reserved40_7F code => codeFits 0xC0 0x40 code
  | .reserved80_BF code => codeFits 0xC0 0x80 code
  | .sof0 => true
  | .sof1 => true
  | .sof2 => true
  | .sof3 => true
  | .dht => true
  | .sof5 => true
  | .sof6 => true
  | .sof7 => true
  | .jpg => true
  | .sof9 => true
  | .sof10 => true
  | .sof11 => true
  | .dac => true
  | .sof13 => true
  | .sof14 => true
  | .sof15 => true
  | .rst _ => true
  | .soi => true
  | .eoi => true
  | .sos => true
  | .dqt => true
  | .dnl => true
  | .dri => true
  | .dhp => true
  | .exp => true
  | .app0 => true
  | .app1 => true
  | .app2 => true
  | .app3 => true
  | .app4 => true
  | .app5 => true
  | .app6 => true
  | .app7 => true
  | .app8 => true
  | .app9 => true
  | .app10 => true
  | .app11 => true
  | .app12 => true
  | .app13 => true
  | .app14 => true
  | .app15 => true
  | .jpg0 => true
  | .jpg1 => true
  | .jpg2 => true
  | .jpg3 => true
  | .jpg4 => true
  | .jpg5 => true
  | .jpg6 => true
  | .jpg7 => true
  | .jpg8 => true
  | .jpg9 => true
  | .jpg10 => true
  | .jpg11 => true
  | .jpg12 => true
  | .jpg13 => true
  | .com => true
  | .fillFF => true
  | .dcSize0 => true
  | .dcSize1 => true
  | .dcSize2 => true
  | .dcSize3 => true
  | .dcSize4 => true
  | .dcSize5 => true
  | .dcSize6 => true
  | .dcSize7 => true
  | .dcSize8 => true
  | .dcSize9 => true
  | .dcSize10 => true
  | .dcSize11 => true
  | .dcIllegal0C_0F value => codeFits 0xFC 0x0C value
  | .dcIllegal10_1F value => codeFits 0xF0 0x10 value
  | .dcIllegal20_3F value => codeFits 0xE0 0x20 value
  | .dcIllegal40_7F value => codeFits 0xC0 0x40 value
  | .dcIllegal80_FF value => codeFits 0x80 0x80 value
  | .acEob => true
  | .acZrl => true
  | .acEobRun1 => true
  | .acEobRun2 => true
  | .acEobRun3 => true
  | .acEobRun4 => true
  | .acEobRun5 => true
  | .acEobRun6 => true
  | .acEobRun7 => true
  | .acEobRun8 => true
  | .acEobRun9 => true
  | .acEobRun10 => true
  | .acEobRun11 => true
  | .acEobRun12 => true
  | .acEobRun13 => true
  | .acEobRun14 => true
  | .acRunSize1 _ => true
  | .acRunSize2 _ => true
  | .acRunSize3 _ => true
  | .acRunSize4 _ => true
  | .acRunSize5 _ => true
  | .acRunSize6 _ => true
  | .acRunSize7 _ => true
  | .acRunSize8 _ => true
  | .acRunSize9 _ => true
  | .acRunSize10 _ => true
  | .acIllegalSize11 _ => true
  | .acIllegalSize12_15 _ sz => decide (12 ≤ sz.toNat)

end Sys2Proof
end

