-- ==== Sys2Proof/Decode.lean ====
section
/-! DEFINITION. Decoding the stream's units, total on any bytes and rejecting by name, and the encoder written from the same tables
(30_encoding R69 to R72, R83, R84). -/

namespace Sys2Proof

/-- Why no instruction is read: fewer bytes than the unit has, or a marker whose first byte is not `0xFF` (R72). -/
inductive Reject where
  | truncated
  | notMarkerByte (b : Byte)
  deriving DecidableEq, Repr

/-- The high nibble of a byte (R8). -/
def hiNibble (b : Byte) : BitVec 4 := b.extractLsb' 4 4

/-- The low nibble of a byte (R8). -/
def loNibble (b : Byte) : BitVec 4 := b.extractLsb' 0 4

/-- The marker code map of R71: every code byte has an action. -/
def markerOf (c : Byte) : Instr :=
  match c.toNat with
  | 0x00 => .invalid00
  | 0x01 => .tem
  | 0xC0 => .sof0
  | 0xC1 => .sof1
  | 0xC2 => .sof2
  | 0xC3 => .sof3
  | 0xC4 => .dht
  | 0xC5 => .sof5
  | 0xC6 => .sof6
  | 0xC7 => .sof7
  | 0xC8 => .jpg
  | 0xC9 => .sof9
  | 0xCA => .sof10
  | 0xCB => .sof11
  | 0xCC => .dac
  | 0xCD => .sof13
  | 0xCE => .sof14
  | 0xCF => .sof15
  | 0xD8 => .soi
  | 0xD9 => .eoi
  | 0xDA => .sos
  | 0xDB => .dqt
  | 0xDC => .dnl
  | 0xDD => .dri
  | 0xDE => .dhp
  | 0xDF => .exp
  | 0xE0 => .app0
  | 0xE1 => .app1
  | 0xE2 => .app2
  | 0xE3 => .app3
  | 0xE4 => .app4
  | 0xE5 => .app5
  | 0xE6 => .app6
  | 0xE7 => .app7
  | 0xE8 => .app8
  | 0xE9 => .app9
  | 0xEA => .app10
  | 0xEB => .app11
  | 0xEC => .app12
  | 0xED => .app13
  | 0xEE => .app14
  | 0xEF => .app15
  | 0xF0 => .jpg0
  | 0xF1 => .jpg1
  | 0xF2 => .jpg2
  | 0xF3 => .jpg3
  | 0xF4 => .jpg4
  | 0xF5 => .jpg5
  | 0xF6 => .jpg6
  | 0xF7 => .jpg7
  | 0xF8 => .jpg8
  | 0xF9 => .jpg9
  | 0xFA => .jpg10
  | 0xFB => .jpg11
  | 0xFC => .jpg12
  | 0xFD => .jpg13
  | 0xFE => .com
  | 0xFF => .fillFF
  | n =>
    if n ≤ 0x03 then .reserved02_03 c
    else if n ≤ 0x07 then .reserved04_07 c
    else if n ≤ 0x0F then .reserved08_0F c
    else if n ≤ 0x1F then .reserved10_1F c
    else if n ≤ 0x3F then .reserved20_3F c
    else if n ≤ 0x7F then .reserved40_7F c
    else if n ≤ 0xBF then .reserved80_BF c
    else .rst (c.extractLsb' 0 3)

/-- The DC size symbols of R83. -/
def dcSymbolOf (v : Byte) : Instr :=
  match v.toNat with
  | 0x00 => .dcSize0
  | 0x01 => .dcSize1
  | 0x02 => .dcSize2
  | 0x03 => .dcSize3
  | 0x04 => .dcSize4
  | 0x05 => .dcSize5
  | 0x06 => .dcSize6
  | 0x07 => .dcSize7
  | 0x08 => .dcSize8
  | 0x09 => .dcSize9
  | 0x0A => .dcSize10
  | 0x0B => .dcSize11
  | n =>
    if n ≤ 0x0F then .dcIllegal0C_0F v
    else if n ≤ 0x1F then .dcIllegal10_1F v
    else if n ≤ 0x3F then .dcIllegal20_3F v
    else if n ≤ 0x7F then .dcIllegal40_7F v
    else .dcIllegal80_FF v

/-- The AC symbols with a zero low nibble (R84): EOB, the fourteen EOB runs, ZRL. -/
def acZeroSizeOf (r : BitVec 4) : Instr :=
  match r.toNat with
  | 0 => .acEob
  | 1 => .acEobRun1
  | 2 => .acEobRun2
  | 3 => .acEobRun3
  | 4 => .acEobRun4
  | 5 => .acEobRun5
  | 6 => .acEobRun6
  | 7 => .acEobRun7
  | 8 => .acEobRun8
  | 9 => .acEobRun9
  | 10 => .acEobRun10
  | 11 => .acEobRun11
  | 12 => .acEobRun12
  | 13 => .acEobRun13
  | 14 => .acEobRun14
  | _ => .acZrl

/-- The AC run/size symbols of R84: `R` the high nibble, `S` the low nibble. -/
def acSymbolOf (v : Byte) : Instr :=
  match (loNibble v).toNat with
  | 0 => acZeroSizeOf (hiNibble v)
  | 1 => .acRunSize1 (hiNibble v)
  | 2 => .acRunSize2 (hiNibble v)
  | 3 => .acRunSize3 (hiNibble v)
  | 4 => .acRunSize4 (hiNibble v)
  | 5 => .acRunSize5 (hiNibble v)
  | 6 => .acRunSize6 (hiNibble v)
  | 7 => .acRunSize7 (hiNibble v)
  | 8 => .acRunSize8 (hiNibble v)
  | 9 => .acRunSize9 (hiNibble v)
  | 10 => .acRunSize10 (hiNibble v)
  | 11 => .acIllegalSize11 (hiNibble v)
  | _ => .acIllegalSize12_15 (hiNibble v) (loNibble v)

/-- A marker from its two bytes (R69, R72). -/
def decodeMarker (b0 c : Byte) : Except Reject Instr :=
  if b0 = 0xFF then .ok (markerOf c) else .error (.notMarkerByte b0)

/-- A symbol value in the context the coefficient index gives (R88, R128). -/
def decodeSymbol (k : Nat) (v : Byte) : Instr :=
  if k = 0 then dcSymbolOf v else acSymbolOf v

/-- The decoder on any bytes: the instruction and the bytes after it, or the name of what is wrong. -/
def decode : UnitKind → List Byte → Except Reject (Instr × List Byte)
  | .marker, b0 :: c :: rest =>
    match decodeMarker b0 c with
    | .ok i => .ok (i, rest)
    | .error e => .error e
  | .marker, _ => .error .truncated
  | .dcSymbol, v :: rest => .ok (dcSymbolOf v, rest)
  | .acSymbol, v :: rest => .ok (acSymbolOf v, rest)
  | _, [] => .error .truncated

/-- The code byte of a marker, or the symbol value of a DC or AC symbol (R71, R83, R84). -/
def Instr.codeByte : Instr → Byte
  | .invalid00 => 0x00
  | .tem => 0x01
  | .reserved02_03 code => code
  | .reserved04_07 code => code
  | .reserved08_0F code => code
  | .reserved10_1F code => code
  | .reserved20_3F code => code
  | .reserved40_7F code => code
  | .reserved80_BF code => code
  | .sof0 => 0xC0
  | .sof1 => 0xC1
  | .sof2 => 0xC2
  | .sof3 => 0xC3
  | .dht => 0xC4
  | .sof5 => 0xC5
  | .sof6 => 0xC6
  | .sof7 => 0xC7
  | .jpg => 0xC8
  | .sof9 => 0xC9
  | .sof10 => 0xCA
  | .sof11 => 0xCB
  | .dac => 0xCC
  | .sof13 => 0xCD
  | .sof14 => 0xCE
  | .sof15 => 0xCF
  | .rst n => (0x1A : BitVec 5) ++ n
  | .soi => 0xD8
  | .eoi => 0xD9
  | .sos => 0xDA
  | .dqt => 0xDB
  | .dnl => 0xDC
  | .dri => 0xDD
  | .dhp => 0xDE
  | .exp => 0xDF
  | .app0 => 0xE0
  | .app1 => 0xE1
  | .app2 => 0xE2
  | .app3 => 0xE3
  | .app4 => 0xE4
  | .app5 => 0xE5
  | .app6 => 0xE6
  | .app7 => 0xE7
  | .app8 => 0xE8
  | .app9 => 0xE9
  | .app10 => 0xEA
  | .app11 => 0xEB
  | .app12 => 0xEC
  | .app13 => 0xED
  | .app14 => 0xEE
  | .app15 => 0xEF
  | .jpg0 => 0xF0
  | .jpg1 => 0xF1
  | .jpg2 => 0xF2
  | .jpg3 => 0xF3
  | .jpg4 => 0xF4
  | .jpg5 => 0xF5
  | .jpg6 => 0xF6
  | .jpg7 => 0xF7
  | .jpg8 => 0xF8
  | .jpg9 => 0xF9
  | .jpg10 => 0xFA
  | .jpg11 => 0xFB
  | .jpg12 => 0xFC
  | .jpg13 => 0xFD
  | .com => 0xFE
  | .fillFF => 0xFF
  | .dcSize0 => 0x00
  | .dcSize1 => 0x01
  | .dcSize2 => 0x02
  | .dcSize3 => 0x03
  | .dcSize4 => 0x04
  | .dcSize5 => 0x05
  | .dcSize6 => 0x06
  | .dcSize7 => 0x07
  | .dcSize8 => 0x08
  | .dcSize9 => 0x09
  | .dcSize10 => 0x0A
  | .dcSize11 => 0x0B
  | .dcIllegal0C_0F value => value
  | .dcIllegal10_1F value => value
  | .dcIllegal20_3F value => value
  | .dcIllegal40_7F value => value
  | .dcIllegal80_FF value => value
  | .acEob => 0x00
  | .acZrl => 0xF0
  | .acEobRun1 => 0x10
  | .acEobRun2 => 0x20
  | .acEobRun3 => 0x30
  | .acEobRun4 => 0x40
  | .acEobRun5 => 0x50
  | .acEobRun6 => 0x60
  | .acEobRun7 => 0x70
  | .acEobRun8 => 0x80
  | .acEobRun9 => 0x90
  | .acEobRun10 => 0xA0
  | .acEobRun11 => 0xB0
  | .acEobRun12 => 0xC0
  | .acEobRun13 => 0xD0
  | .acEobRun14 => 0xE0
  | .acRunSize1 r => r ++ (0x1 : BitVec 4)
  | .acRunSize2 r => r ++ (0x2 : BitVec 4)
  | .acRunSize3 r => r ++ (0x3 : BitVec 4)
  | .acRunSize4 r => r ++ (0x4 : BitVec 4)
  | .acRunSize5 r => r ++ (0x5 : BitVec 4)
  | .acRunSize6 r => r ++ (0x6 : BitVec 4)
  | .acRunSize7 r => r ++ (0x7 : BitVec 4)
  | .acRunSize8 r => r ++ (0x8 : BitVec 4)
  | .acRunSize9 r => r ++ (0x9 : BitVec 4)
  | .acRunSize10 r => r ++ (0xA : BitVec 4)
  | .acIllegalSize11 r => r ++ (0xB : BitVec 4)
  | .acIllegalSize12_15 r sz => r ++ sz

/-- The bytes of an instruction: `FF c` for a marker, the symbol value for a symbol. -/
def encode (i : Instr) : List Byte :=
  match i.kind with
  | .marker => [0xFF, i.codeByte]
  | .dcSymbol => [i.codeByte]
  | .acSymbol => [i.codeByte]

/-- The word of an instruction as spec/opcode_table.json numbers its bits: a marker is one 16-bit word, prefix in bits 15..8. -/
def Instr.tableWord (i : Instr) : Nat :=
  match i.kind with
  | .marker => 0xFF00 + i.codeByte.toNat
  | .dcSymbol => i.codeByte.toNat
  | .acSymbol => i.codeByte.toNat

/-- The bytes of a table word of `nbits` bits, most significant byte first (20_memory R56). -/
def tableBytes (nbits w : Nat) : List Byte :=
  if nbits = 16 then [BitVec.ofNat 8 (w / 256), BitVec.ofNat 8 w] else [BitVec.ofNat 8 w]

/-- The context a table word of `nbits` bits is read in. A symbol value alone does not say whether it is a DC or an AC symbol
(the two formats use the same 256 values, R83, R84): an 8-bit word is read as an AC symbol (log 13). -/
def tableKind (nbits : Nat) : Option UnitKind :=
  if nbits = 16 then some .marker else if nbits = 8 then some .acSymbol else none

/-- The instruction the decoder reads from an instruction whose bits, as the opcode table numbers them, are `w`. -/
def decodeTableWord (nbits w : Nat) : Option Instr :=
  match tableKind nbits with
  | none => none
  | some kind =>
    match decode kind (tableBytes nbits w) with
    | .ok (i, _) => some i
    | .error _ => none

end Sys2Proof
end

