-- ==== Sys2Proof/Machine/Ops.lean ====
section
/-! DEFINITION. The shared operations: byte spaces (20_memory), holds (00_scope R13), error entry and completion
(60_exceptions R199, 46_host_interface R190), segment fetch and retire (40_segments R92). -/

namespace Sys2Proof.Machine

/-! ### Byte spaces -/

/-- What a byte space holds at an offset; an unlisted offset holds no value (20_memory R62; log 4). -/
def Memory.read : Memory → Nat → Option Byte
  | [], _ => none
  | (b, v) :: rest, a => if a = b then some v else Memory.read rest a

/-- One byte written, in canonical form. -/
def Memory.write : Memory → Nat → Byte → Memory
  | [], a, v => [(a, v)]
  | (b, w) :: rest, a, v =>
    if a < b then (a, v) :: (b, w) :: rest
    else if a = b then (a, v) :: rest
    else (b, w) :: Memory.write rest a v

/-- Consecutive bytes written from an offset on. -/
def Memory.writeBytes : Memory → Nat → List Byte → Memory
  | m, _, [] => m
  | m, a, v :: vs => Memory.writeBytes (Memory.write m a v) (a + 1) vs

/-- `n` consecutive bytes from an offset on, or none if one of them holds no value. -/
def Memory.readBytes (m : Memory) (a : Nat) : Nat → Option (List Byte)
  | 0 => some []
  | n + 1 =>
    match Memory.read m a, Memory.readBytes m (a + 1) n with
    | some v, some vs => some (v :: vs)
    | _, _ => none

/-- The canonical form: offsets strictly rising. -/
abbrev Memory.wf (m : Memory) : Prop := m.Pairwise (fun x y => x.1 < y.1)

/-- Two bytes as a big-endian integer (20_memory R56). -/
def be16Of (hi lo : Byte) : Nat := hi.toNat * 256 + lo.toNat

/-- `be16(a)` of 00_scope R11: two bytes, the lower offset more significant. -/
def Memory.be16 (m : Memory) (a : Nat) : Option Nat :=
  match Memory.read m a, Memory.read m (a + 1) with
  | some hi, some lo => some (be16Of hi lo)
  | _, _ => none

/-! ### Named updates of the state -/

/-- The decoder replaced. -/
def State.withDec (s : State) (d : Decoder) : State := { s with dec := d }

/-- `D.pos <- D.pos + n`. -/
def State.consume (s : State) (n : Nat) : State := s.withDec { s.dec with pos := s.dec.pos + n }

/-- `pc <- seg` (00_scope R10). -/
def State.goto (s : State) (seg : Seg) : State := s.withDec { s.dec with seg := seg }

/-- `D.C[j] <- c`. -/
def Decoder.setComp (d : Decoder) (j : Nat) (c : Component) : Decoder := { d with comps := d.comps.set j c }

/-- The active component `D.C[D.order[D.scan_pos]]` with its position (10_state R38). -/
def Decoder.active (d : Decoder) : Option (Nat × Component) :=
  match d.order[d.scanPos]? with
  | none => none
  | some j =>
    match d.comps[j]? with
    | none => none
    | some c => some (j, c)

/-- `DONE` and `ERROR` are final (60_exceptions R202). -/
def Seg.final : Seg → Bool
  | .done => true
  | .error => true
  | .marker | .dqt | .dnl | .dri | .exp | .sof | .dht | .dac | .sos | .scan | .app0 | .com => false

/-! ### Completion, errors and holds -/

/-- `signal completion(x)` (46_host_interface R190): delivered at most once. -/
def signalCompletion (x : Completion) (s : State) : State :=
  if s.dec.completed then s
  else { s with
    dec := { s.dec with completed := true }
    host := { s.host with events := s.host.events ++ [x] } }

/-- `ErrorEntry(Ek)` (60_exceptions R199): the code latched, the sequencer in `ERROR`, the completion event sent; nothing else changes. -/
def errorEntry (e : Err) (s : State) : State :=
  signalCompletion (.error e) (s.withDec { s.dec with error := some e, seg := .error })

/-- `raise Error(Ek)` (00_scope R12): the operation ends in the entry's state. -/
def raise (e : Err) (s : State) : Host.Outcome State Fault Refusal := .next (errorEntry e s)

/-- `Result()` (46_host_interface R188). -/
def feedResult (d : Decoder) : FeedResult :=
  match d.seg with
  | .done => .done d.img
  | .error => .error d.error
  | .marker | .dqt | .dnl | .dri | .exp | .sof | .dht | .dac | .sos | .scan | .app0 | .com => .needMore d.pos

/-- The running Feed returns `Result()` to the host (46_host_interface R186; log 12). -/
def feedReturn (s : State) : State :=
  { s with host := { s.host with running := false, replies := s.host.replies ++ [.feed (feedResult s.dec)] } }

/-- `need_more` (00_scope R13): the driver stops and the Feed returns, or, at end of stream, E37. The decoder is not changed by a hold. -/
def needMore (s : State) : Host.Outcome State Fault Refusal :=
  if s.dec.eos then raise .e37 s else .next (feedReturn s)

/-! ### Segments -/

/-- What `SegFetch` answers (40_segments R92). -/
inductive SegFetch where
  | ok (len : Nat) (payload : List Byte)
  | hold
  | badLength
  | hole (offset : Nat)
  deriving DecidableEq, Repr

/-- `SegFetch()` (40_segments R92): the length field, then the whole declared segment. -/
def segFetch (d : Decoder) : SegFetch :=
  if d.avail < d.pos + 2 then .hold
  else
    match Memory.be16 d.input d.pos with
    | none => .hole d.pos
    | some len =>
      if len < 2 then .badLength
      else if d.avail < d.pos + len then .hold
      else
        match Memory.readBytes d.input (d.pos + 2) (len - 2) with
        | none => .hole d.pos
        | some p => .ok len p

/-- `SegRetire(L, next)` (40_segments R92). -/
def segRetire (len : Nat) (next : Seg) (s : State) : State := (s.consume len).goto next

/-- The frame of every handler (40_segments R91, R92): hold, E3 on a length below 2, or the handler's own body on the whole segment. -/
def withSegment (s : State) (body : Nat → List Byte → Host.Outcome State Fault Refusal) : Host.Outcome State Fault Refusal :=
  match segFetch s.dec with
  | .ok len p => body len p
  | .hold => needMore s
  | .badLength => raise .e3 s
  | .hole a => .fault (.inputHole a)

/-- A marker consumed and refused at dispatch (40_segments R93, R97). -/
def refuseMarker (e : Err) (s : State) : Host.Outcome State Fault Refusal := raise e (s.consume 2)

/-- A marker that selects a handler (40_segments R93, R96). -/
def selectHandler (seg : Seg) (s : State) : Host.Outcome State Fault Refusal := .next ((s.consume 2).goto seg)

/-- A handler that waits for its whole segment and refuses it (40_segments R107 to R110). -/
def refuseSegment (e : Err) (s : State) : Host.Outcome State Fault Refusal := withSegment s fun _ _ => raise e s

end Sys2Proof.Machine
end

