-- ==== Sys2Proof/Machine/Operands.lean ====
section
/-! DEFINITION. Operand forms: payload fields (30_encoding R87), amplitudes (R85, R86), the helpers of 00_scope R14. -/

namespace Sys2Proof.Machine

/-- `p[i]` of a segment payload; the handlers read inside the payload only. -/
def byteAt (p : List Byte) (i : Nat) : Byte := p.getD i 0

/-- A 2-byte big-endian field of a payload (R87). -/
def fieldU16 (p : List Byte) (i : Nat) : U16 := byteAt p i ++ byteAt p (i + 1)

/-- `clamp(lo, hi, x)` (00_scope R14). -/
def clamp (lo hi x : Int) : Int := min hi (max lo x)

/-- An integer clamped to 0..255, as a byte. -/
def clampByte (x : Int) : Byte := BitVec.ofNat 8 (clamp 0 255 x).toNat

/-- `bitlen(v)` (00_scope R14). -/
def bitlen (v : Int) : Nat := if v = 0 then 0 else v.natAbs.log2 + 1

/-- The value of an amplitude of magnitude `s` whose bits are `a` (30_encoding R85). -/
def amplitudeValue (s a : Nat) : Int :=
  if s = 0 then 0
  else if a < 2 ^ (s - 1) then (a : Int) - 2 ^ s + 1
  else a

/-- The amplitude bits of a value of magnitude `s` (30_encoding R86). -/
def amplitudeBits (v : Int) (s : Nat) : Nat := if 0 ≤ v then v.toNat else (v + 2 ^ s - 1).toNat

end Sys2Proof.Machine
end

