-- ==== Sys2Proof/Machine/Transform.lean ====
section
/-! DEFINITION. The transform kernel (44_transform): inverse DCT to samples, forward DCT, quantisation. Blocks are in natural order. -/

namespace Sys2Proof.Machine

/-- The natural position `8 * row + column` (00_scope R16). -/
def natPos (row col : Fin 8) : Fin 64 := ⟨8 * row.val + col.val, by omega⟩

/-- The row of a natural position. -/
def rowOf (p : Fin 64) : Fin 8 := ⟨p.val / 8, by omega⟩

/-- The column of a natural position. -/
def colOf (p : Fin 64) : Fin 8 := ⟨p.val % 8, by omega⟩

/-- A sum over 0..7, left to right from `+0.0` (R158). -/
def sum8 (f : Fin 8 → F64) : F64 :=
  [0, 1, 2, 3, 4, 5, 6, 7].foldl (fun acc u => F64.add acc (f u)) (.fin false 0 (-1074))

/-- The first pass of `IdctReal` (R158): rows of coefficients, `t[v][x]` at position `8 * v + x`. -/
def idctRows (f : Vector Int 64) : Vector F64 64 :=
  Vector.ofFn fun p => sum8 fun u =>
    F64.mul (F64.mul (Rom.alpha u) (F64.ofInt f[natPos (rowOf p) u])) (Rom.cos (colOf p) u)

/-- The second pass of `IdctReal` (R158): `o[8 * y + x]`. -/
def idctCols (t : Vector F64 64) : Vector F64 64 :=
  Vector.ofFn fun p => sum8 fun v =>
    F64.mul (F64.mul (Rom.alpha v) t[natPos v (colOf p)]) (Rom.cos (rowOf p) v)

/-- `IdctReal` (R158). -/
def idctReal (f : Vector Int 64) : Vector F64 64 := idctCols (idctRows f)

/-- The inverse transform in force: the reference, or `DCT_IMPL`'s (R159, R165). -/
def inverseDct (cfg : Params) (f : Vector Int 64) : Vector F64 64 :=
  match cfg.dctImpl with
  | .reference => idctReal f
  | .other => Config.otherInverseDct (f.map F64.ofInt)

/-- A rounded value that does not fit 16 bits (R159). -/
def outsideI16 (n : Int) : Bool := decide (n < -32768) || decide (32767 < n)

/-- Level shift and clamp of a rounded value (R159). -/
def levelShift (n : Int) : Byte := clampByte (clamp (-32768) 32767 n + 128)

/-- `IdctSamples` (R159); none is E36. -/
def idctSamples (cfg : Params) (f : Vector Int 64) : Option (Vector Byte 64) :=
  let ns := (inverseDct cfg f).map (F64.round cfg.idctRound)
  match cfg.idctOverflow with
  | .fault => if ns.toList.any outsideI16 then none else some (ns.map levelShift)
  | .saturate => some (ns.map levelShift)

/-- The first pass of `FdctReal` (R162): `t[y][u]` at position `8 * y + u`. -/
def fdctRows (s : Vector Int 64) : Vector F64 64 :=
  Vector.ofFn fun p => sum8 fun x => F64.mul (F64.ofInt s[natPos (rowOf p) x]) (Rom.cos x (colOf p))

/-- The second pass of `FdctReal` (R162): `G[8 * v + u]`. -/
def fdctCols (t : Vector F64 64) : Vector F64 64 :=
  Vector.ofFn fun p =>
    F64.mul (F64.mul (Rom.alpha (colOf p)) (Rom.alpha (rowOf p)))
      (sum8 fun y => F64.mul t[natPos y (colOf p)] (Rom.cos y (rowOf p)))

/-- `FdctReal` (R162). -/
def fdctReal (s : Vector Int 64) : Vector F64 64 := fdctCols (fdctRows s)

/-- The forward transform in force: the reference, or `DCT_IMPL`'s (R165). -/
def forwardDct (cfg : Params) (s : Vector Int 64) : Vector F64 64 :=
  match cfg.dctImpl with
  | .reference => fdctReal s
  | .other => Config.otherForwardDct (s.map F64.ofInt)

/-- `QUANT_ROUND` as a rounding mode (00_scope R7, R14). -/
def quantMode : QuantRound → RoundMode
  | .nearestAway => .nearestAway
  | .nearestEven => .nearestEven

/-- Quantisation (R163) of a block by a table in natural order. -/
def quantise (mode : QuantRound) (g : Vector F64 64) (q : List Byte) : Vector Int 64 :=
  Vector.ofFn fun p => F64.round (quantMode mode) (F64.div g[p] (F64.ofInt (q.getD p.val 0).toNat))

end Sys2Proof.Machine
end

