-- ==== Sys2Proof/Machine/Encoder.lean ====
section
/-! DEFINITION. The encoder (45_encoder): segment writer, block extraction, entropy encoder, bit writer. -/

namespace Sys2Proof.Machine

/-! ### Bit writer (R180 to R182) -/

/-- `OutAppend` of several bytes (00_scope R11). -/
def Encoder.append (e : Encoder) (bs : List Byte) : Encoder := { e with out := e.out ++ bs }

/-- Eight bits as a byte, first bit = bit 7 (R181). -/
def byteOfBits (bits : List Bool) : Byte := BitVec.ofNat 8 (bits.foldl (fun n b => 2 * n + (if b then 1 else 0)) 0)

/-- A data byte with its stuffed zero when it is `FF` (R181). -/
def stuffed (b : Byte) : List Byte := if b = 0xFF then [b, 0x00] else [b]

/-- `EmitByte()` (R181). -/
def Encoder.emitByte (e : Encoder) : Encoder := { e.append (stuffed (byteOfBits e.wacc)) with wacc := [] }

/-- One bit appended, a full byte emitted (R180). -/
def Encoder.putBit (e : Encoder) (b : Bool) : Encoder :=
  let e' := { e with wacc := e.wacc ++ [b] }
  if e'.wn = 8 then e'.emitByte else e'

/-- `PutBits(value, w)` (R180): the `w` low bits, most significant first. -/
def Encoder.putBits (e : Encoder) (value : Nat) : Nat → Encoder
  | 0 => e
  | w + 1 => (e.putBit (value.testBit w)).putBits value w

/-- `FlushBits()` (R182): pending bits padded with 1-bits. -/
def Encoder.flushBits (e : Encoder) : Encoder :=
  if e.wn = 0 then e else e.putBits (2 ^ (8 - e.wn) - 1) (8 - e.wn)

/-! ### Header segments (R167 to R174) -/

/-- `sel(c)` (R172). -/
def sel (c : Nat) : Nat := if c = 0 then 0 else 1

/-- A 16-bit integer, big-endian (20_memory R56). -/
def be16Bytes (n : Nat) : List Byte := [BitVec.ofNat 8 (n / 256), BitVec.ofNat 8 n]

/-- `ROM.STDQ[t]` in natural order (R173). -/
def stdQ (t : Nat) : List Byte := if t = 0 then Rom.stdQLum else Rom.stdQChr

/-- SOI and APP0 (R167). -/
def headerApp0 : List Byte :=
  [0xFF, 0xD8] ++ [0xFF, 0xE0, 0x00, 0x10, 0x4A, 0x46, 0x49, 0x46, 0x00, 0x01, 0x01, 0x00, 0x00, 0x01, 0x00, 0x01, 0x00, 0x00]

/-- The number of table pairs an image of `n` components uses (R168, R170). -/
def tableCount (n : Nat) : Nat := if n = 1 then 1 else 2

/-- One DQT entry (R168). -/
def dqtEntry (t : Nat) : List Byte := BitVec.ofNat 8 t :: (Rom.zigzag.map fun p => (stdQ t).getD p.val 0)

/-- DQT (R168). -/
def headerDqt (n : Nat) : List Byte :=
  [0xFF, 0xDB] ++ be16Bytes (2 + 65 * tableCount n) ++ (List.range (tableCount n)).flatMap dqtEntry

/-- SOF0 (R169). -/
def headerSof (width height n : Nat) : List Byte :=
  [0xFF, 0xC0] ++ be16Bytes (8 + 3 * n) ++ [0x08] ++ be16Bytes height ++ be16Bytes width ++ [BitVec.ofNat 8 n]
    ++ (List.range n).flatMap fun c => [BitVec.ofNat 8 (c + 1), 0x11, BitVec.ofNat 8 (sel c)]

/-- One DHT entry (R170). -/
def dhtEntry (tcth : Byte) (t : HuffTable) : List Byte := tcth :: (t.counts.toList ++ t.symbols)

/-- The DHT entries of an image of `n` components, in the order of R170. -/
def dhtPayload (n : Nat) : List Byte :=
  dhtEntry 0x00 (stdDc 0) ++ dhtEntry 0x10 (stdAc 0)
    ++ (if n = 1 then [] else dhtEntry 0x01 (stdDc 1) ++ dhtEntry 0x11 (stdAc 1))

/-- DHT (R170). -/
def headerDht (n : Nat) : List Byte := [0xFF, 0xC4] ++ be16Bytes (2 + (dhtPayload n).length) ++ dhtPayload n

/-- SOS (R174). -/
def headerSos (n : Nat) : List Byte :=
  [0xFF, 0xDA] ++ be16Bytes (6 + 2 * n) ++ [BitVec.ofNat 8 n]
    ++ ((List.range n).flatMap fun c => [BitVec.ofNat 8 (c + 1), if sel c = 0 then 0x00 else 0x11]) ++ [0x00, 0x3F, 0x00]

/-- `WriteHeaders()` (R166 to R174). -/
def headers (src : SrcImage) : List Byte :=
  headerApp0 ++ headerDqt src.ncomp ++ headerSof src.width src.height src.ncomp ++ headerDht src.ncomp ++ headerSos src.ncomp

/-! ### Entropy encoder (R178) -/

/-- What an encoder action answers: the encoder after it, or a refusal with the bytes written before it. -/
inductive EncAct where
  | ok (e : Encoder)
  | refuse (r : EncRefusal) (e : Encoder)
  deriving DecidableEq, Repr

/-- One action after another. -/
def EncAct.andThen (a : EncAct) (f : Encoder → EncAct) : EncAct :=
  match a with
  | .ok e => f e
  | .refuse r e => .refuse r e

/-- `PutCode(HuffEncode(t, v))` (R178); EF2 when the table has no code for `v` (41_huffman R118). -/
def putSymbol (t : HuffTable) (v : Nat) (e : Encoder) : EncAct :=
  match huffEncode t v with
  | some (code, w) => .ok (e.putBits code w)
  | none => .refuse .ef2 e

/-- `E.epred[c]` for a component 0..3 (10_state R50). -/
def predOf (e : Encoder) (c : Nat) : Int := e.epred.toList.getD c 0

/-- `EncodeDC(c, dc)` (R178). -/
def encodeDc (c : Nat) (dc : Int) (e : Encoder) : EncAct :=
  let diff := dc - predOf e c
  let s := bitlen diff
  (putSymbol (stdDc (sel c)) s { e with epred := e.epred.setIfInBounds c dc }).andThen fun e =>
    .ok (e.putBits (amplitudeBits diff s) s)

/-- `n` ZRL symbols (R178). -/
def putZrl (t : HuffTable) : Nat → Encoder → EncAct
  | 0, e => .ok e
  | n + 1, e => (putSymbol t 0xF0 e).andThen (putZrl t n)

/-- The AC coefficients from zig-zag index 1 on, with the run of zeros before them (R178). -/
def encodeAcFrom (t : HuffTable) : Nat → List Int → Encoder → EncAct
  | run, [], e => if 0 < run then putSymbol t 0x00 e else .ok e
  | run, z :: zs, e =>
    if z = 0 then encodeAcFrom t (run + 1) zs e
    else
      (putZrl t (run / 16) e).andThen fun e =>
        (putSymbol t (16 * (run % 16) + bitlen z) e).andThen fun e =>
          encodeAcFrom t 0 zs (e.putBits (amplitudeBits z (bitlen z)) (bitlen z))

/-- `EncodeAC(c, ZZ)` (R178). -/
def encodeAc (c : Nat) (zz : List Int) (e : Encoder) : EncAct := encodeAcFrom (stdAc (sel c)) 0 zz.tail e

/-! ### Blocks (R175 to R177) -/

/-- `SrcRead` at an interleaved offset (00_scope R11); `Encode` reads inside the buffer only. -/
def srcRead (src : SrcImage) (o : Nat) : Byte := src.pix.getD o 0

/-- Block extraction with edge replication (R175). -/
def extractBlock (src : SrcImage) (c bx byy : Nat) : Vector Byte 64 :=
  Vector.ofFn fun p =>
    srcRead src ((min (8 * byy + p.val / 8) (src.height - 1) * src.width + min (8 * bx + p.val % 8) (src.width - 1)) * src.ncomp + c)

/-- The quantised block in zig-zag order (R177, 44_transform R161 to R163). -/
def quantisedZigzag (cfg : Params) (c : Nat) (blk : Vector Byte 64) : List Int :=
  let qc := quantise cfg.quantRound (forwardDct cfg (blk.map fun b => (b.toNat : Int) - 128)) (stdQ (sel c))
  Rom.zigzag.map fun p => qc[p]

/-- `EncodeBlock(c, blk)` (R177). -/
def encodeBlock (cfg : Params) (c : Nat) (blk : Vector Byte 64) (e : Encoder) : EncAct :=
  let zz := quantisedZigzag cfg c blk
  (encodeDc c (zz.headD 0) e).andThen (encodeAc c zz)

/-- The block positions in order (R176): raster order of positions, components in declaration order inside each. -/
def blockOrder (src : SrcImage) : List (Nat × Nat × Nat) :=
  (List.range ((src.height + 7) / 8)).flatMap fun byy =>
    (List.range ((src.width + 7) / 8)).flatMap fun bx => (List.range src.ncomp).map fun c => (byy, bx, c)

/-- Blocks encoded in the order given (R176). -/
def encodeBlocks (cfg : Params) (src : SrcImage) : List (Nat × Nat × Nat) → Encoder → EncAct
  | [], e => .ok e
  | (byy, bx, c) :: rest, e => (encodeBlock cfg c (extractBlock src c bx byy) e).andThen (encodeBlocks cfg src rest)

/-! ### The operation (R166, R183, R193) -/

/-- Pixels converted by the conversion `ENC_RGB_TO_YCBCR` supplies (R183). -/
def convertPixels : List Byte → List Byte
  | r :: g :: b :: rest =>
    let c := Config.rgbToYcbcr (r, g, b)
    c.1 :: c.2.1 :: c.2.2 :: convertPixels rest
  | rest => rest

/-- The samples the encoder extracts from (R183): as given, or converted when the parameter says so and the image has 3 components (log 9). -/
def encodedSource (cfg : Params) (src : SrcImage) : SrcImage :=
  if cfg.encRgbToYcbcr && src.ncomp == 3 then { src with pix := convertPixels src.pix } else src

/-- The precondition of `Encode()` (R166). -/
def encodable (src : SrcImage) : Bool :=
  decide (1 ≤ src.width) && decide (src.width ≤ 65535) && decide (1 ≤ src.height) && decide (src.height ≤ 65535)
    && decide (1 ≤ src.ncomp) && decide (src.ncomp ≤ 4) && decide (src.pix.length = src.width * src.height * src.ncomp)

/-- A constructed encoder (46_host_interface R193, 70_reset R214). -/
def Encoder.construct (src : SrcImage) : Encoder where
  src := src
  out := []
  wacc := []
  epred := Vector.replicate 4 0

/-- The working registers at their construction values, `E.out` kept (46_host_interface R193). -/
def Encoder.restart (e : Encoder) : Encoder := { e with wacc := [], epred := Vector.replicate 4 0 }

/-- `Encode()` (R166) on an encoder whose working registers are reset. -/
def Encoder.run (cfg : Params) (e : Encoder) : EncAct :=
  if encodable e.src then
    let src := encodedSource cfg e.src
    (encodeBlocks cfg src (blockOrder src) (e.append (headers src))).andThen fun e => .ok (e.flushBits.append [0xFF, 0xD9])
  else .refuse .ef1 e

/-- `encode()` (46_host_interface R193). -/
def Encoder.encode (cfg : Params) (e : Encoder) : EncAct := e.restart.run cfg

end Sys2Proof.Machine
end

