-- ==== Sys2Proof/Machine/BitReader.lean ====
section
/-! DEFINITION. The bit reader (42_entropy R125, R126). -/

namespace Sys2Proof.Machine

/-- What `ReadBit()` answers: a bit with the decoder after it, a marker (the decoder back in `MARKER`, nothing consumed),
a hold, or an offset of IN below `D.avail` that holds no byte. -/
inductive BitRead where
  | bit (b : Bool) (d : Decoder)
  | markerSeen (d : Decoder)
  | hold
  | hole (offset : Nat)
  deriving DecidableEq, Repr

/-- The next bit of the accumulator (R125): `D.nbits <- D.nbits - 1; return D.acc[D.nbits]`. -/
def takeBit (d : Decoder) : BitRead :=
  .bit (d.acc.getLsbD (d.nbits - 1)) { d with nbits := d.nbits - 1 }

/-- A fetched data byte of `n` stream bytes in the accumulator (R125). -/
def loadByte (b : Byte) (n : Nat) (d : Decoder) : Decoder := { d with pos := d.pos + n, acc := b, nbits := 8 }

/-- `ReadBit()` (R125): a byte is fetched only when the accumulator is empty, the pair `FF 00` as one data byte. -/
def readBit (d : Decoder) : BitRead :=
  if d.nbits ≠ 0 then takeBit d
  else if d.avail < d.pos + 1 then .hold
  else
    match Memory.read d.input d.pos with
    | none => .hole d.pos
    | some b =>
      if b = 0xFF then
        if d.avail < d.pos + 2 then .hold
        else
          match Memory.read d.input (d.pos + 1) with
          | none => .hole (d.pos + 1)
          | some b2 => if b2 = 0 then takeBit (loadByte b 2 d) else .markerSeen { d with seg := .marker }
      else takeBit (loadByte b 1 d)

end Sys2Proof.Machine
end

