-- ==== Sys2Proof/Machine/Flags.lean ====
section
/-! DEFINITION. The condition flags of 10_state R46 (`frame_present`, `scan_present`, `scan_complete`, `mode`) and the rules that write them.
No rule sets a flag as a side effect of arithmetic. -/

namespace Sys2Proof.Machine

/-- The start-of-frame handler's flags (40_segments R99). -/
def Decoder.flagFrame (d : Decoder) (mode : Mode) : Decoder := { d with mode := mode, framePresent := true }

/-- The start-of-scan handler's flag (40_segments R103). -/
def Decoder.flagScan (d : Decoder) : Decoder := { d with scanPresent := true }

/-- `ScanEnd()` (43_mcu_color R150): the flag, the leftover bits discarded, back to `MARKER`. -/
def Decoder.scanEnd (d : Decoder) : Decoder := { d with scanComplete := true, nbits := 0, seg := .marker }

end Sys2Proof.Machine
end

