-- ==== Sys2Proof/Machine/Mcu.lean ====
section
/-! DEFINITION. Data-unit completion, placement with upsampling and clipping, colour conversion, the MCU cursors (43_mcu_color). -/

namespace Sys2Proof.Machine

/-- The binary64 value nearest 1.402 (R148). -/
def ccRedCr : F64 := .fin false 0x166e978d4fdf3b (-52)

/-- The binary64 value nearest 0.344136 (R148). -/
def ccGreenCb : F64 := .fin false 0x16065300581494 (-54)

/-- The binary64 value nearest 0.714136 (R148). -/
def ccGreenCr : F64 := .fin false 0x16da33bd9cae21 (-53)

/-- The binary64 value nearest 1.772 (R148). -/
def ccBlueCb : F64 := .fin false 0x1c5a1cac083127 (-52)

/-- A channel rounded and clamped (R148). -/
def channel (mode : RoundMode) (x : F64) : Byte := clampByte (F64.round mode x)

/-- The arithmetic of `ConvertPixel` (R148): Y, Cb, Cr to R, G, B. -/
def ycbcrToRgb (mode : RoundMode) (y8 cb8 cr8 : Byte) : Byte × Byte × Byte :=
  let y := F64.ofInt y8.toNat
  let cb := F64.ofInt ((cb8.toNat : Int) - 128)
  let cr := F64.ofInt ((cr8.toNat : Int) - 128)
  (channel mode (F64.add y (F64.mul ccRedCr cr)),
   channel mode (F64.sub (F64.sub y (F64.mul ccGreenCb cb)) (F64.mul ccGreenCr cr)),
   channel mode (F64.add y (F64.mul ccBlueCb cb)))

/-- `ConvertPixel(o)` (R148) on IMG; a cell no rule has written is a model fault (20_memory R62). -/
def convertPixel (mode : RoundMode) (pix : Memory) (o : Nat) : Except Fault Memory :=
  match Memory.read pix o, Memory.read pix (o + 1), Memory.read pix (o + 2) with
  | some y, some cb, some cr =>
    let rgb := ycbcrToRgb mode y cb cr
    .ok (Memory.write (Memory.write (Memory.write pix o rgb.1) (o + 1) rgb.2.1) (o + 2) rgb.2.2)
  | none, _, _ => .error (.unwrittenCell o)
  | some _, none, _ => .error (.unwrittenCell (o + 1))
  | some _, some _, none => .error (.unwrittenCell (o + 2))

/-- The top-left pixel of the sample at row `yy`, column `xx` of the data unit being completed (R144, R145). -/
def sampleOrigin (d : Decoder) (c : Component) (yy xx : Nat) : Nat × Nat :=
  let mx := d.mcu % d.mcux
  let my := d.mcu / d.mcux
  let sx := d.hmax / c.h
  let sy := d.vmax / c.v
  (mx * 8 * d.hmax + (c.du % c.h * 8 + xx) * sx, my * 8 * d.vmax + (c.du / c.h * 8 + yy) * sy)

/-- The pixels of one sample (R145, R146): a block of `sx * sy` pixels, clipped at the image's width and height. -/
def samplePixels (d : Decoder) (c : Component) (yy xx : Nat) : List (Nat × Nat) :=
  let o := sampleOrigin d c yy xx
  ((List.range (d.vmax / c.v)).flatMap fun j => (List.range (d.hmax / c.h)).map fun i => (o.1 + i, o.2 + j)).filter
    fun p => decide (p.1 < d.width.toNat) && decide (p.2 < d.height.toNat)

/-- Every pixel a data unit writes, with its value (R146). -/
def unitPixels (d : Decoder) (c : Component) (samples : Vector Byte 64) : List ((Nat × Nat) × Byte) :=
  (List.range 64).flatMap fun n => (samplePixels d c (n / 8) (n % 8)).map fun p => (p, samples.toList.getD n 0)

/-- The IMG offset of a pixel's first cell (20_memory R59). -/
def pixelOffset (d : Decoder) (p : Nat × Nat) : Nat := (p.2 * d.width.toNat + p.1) * d.nf

/-- The number of cells of IMG (10_state R40). -/
def imageSize (d : Decoder) : Nat := d.width.toNat * d.height.toNat * d.nf

/-- One pixel written, and converted at once when `conv` (R146). -/
def placePixel (mode : RoundMode) (d : Decoder) (index : Nat) (conv : Bool) (pix : Memory) (w : (Nat × Nat) × Byte) : Except Fault Memory :=
  let o := pixelOffset d w.1
  if imageSize d ≤ o + index then .error (.imageRange (o + index))
  else if conv then convertPixel mode (Memory.write pix (o + index) w.2) o
  else .ok (Memory.write pix (o + index) w.2)

/-- The pixels of a data unit written in order (R146). -/
def placePixels (mode : RoundMode) (d : Decoder) (index : Nat) (conv : Bool) : Memory → List ((Nat × Nat) × Byte) → Except Fault Memory
  | pix, [] => .ok pix
  | pix, w :: ws =>
    match placePixel mode d index conv pix w with
    | .error f => .error f
    | .ok pix' => placePixels mode d index conv pix' ws

/-- When conversion runs (R147): exactly 3 components, and the last component of the scan. -/
def convertsNow (d : Decoder) : Bool := decide (d.nf = 3) && decide (d.scanPos + 1 = d.ns)

/-- The MCU counter advanced, and the scan ended at the image's data-unit count (R149, R150). -/
def advanceMcu (d : Decoder) : Decoder :=
  let d' := { d with scanPos := 0, mcu := d.mcu + 1 }
  if d'.mcu = d'.mcuTotal then d'.scanEnd else d'

/-- `AdvanceCursors(c)` (R149), for the component at position `j`. -/
def advanceCursors (d : Decoder) (j : Nat) (c : Component) : Decoder :=
  if c.du + 1 = c.h * c.v then
    let d' := { d.setComp j { c with du := 0 } with k := 0, scanPos := d.scanPos + 1 }
    if d'.scanPos = d'.ns then advanceMcu d' else d'
  else { d.setComp j { c with du := c.du + 1 } with k := 0 }

/-- `DataUnitComplete(c)` (R143): inverse DCT, placement, cursors. -/
def dataUnitComplete (s : State) (j : Nat) (c : Component) : Host.Outcome State Fault Refusal :=
  match idctSamples s.cfg c.scratch with
  | none => raise .e36 s
  | some samples =>
    match s.dec.img with
    | none => .fault .noImage
    | some img =>
      match placePixels s.cfg.ccRound s.dec c.index (convertsNow s.dec) img.pix (unitPixels s.dec c samples) with
      | .error f => .fault f
      | .ok pix => .next (s.withDec (advanceCursors { s.dec with img := some { img with pix := pix } } j c))

end Sys2Proof.Machine
end

