-- ==== Sys2Proof/Machine/Coefficients.lean ====
section
/-! DEFINITION. Amplitudes and coefficient placement (42_entropy R136 to R139) for the component `c` at position `j`. -/

namespace Sys2Proof.Machine

/-- `n` coefficients set to zero from zig-zag index `k` on (R138, R139). -/
def zeroFill (scratch : Vector Int 64) (k : Nat) : Nat → Vector Int 64
  | 0 => scratch
  | n + 1 => zeroFill (scratch.set (zigzagPos k).val 0 (zigzagPos k).isLt) (k + 1) n

/-- The decoder with a component's scratch buffer and the coefficient index written. -/
def Decoder.withScratch (d : Decoder) (j : Nat) (c : Component) (k : Nat) : Decoder := { d.setComp j c with k := k }

/-- `AddCoef(c, run, v)` (R139): run check, zeros, dequantisation (44_transform R157), and completion at the 64th coefficient. -/
def addCoef (s : State) (j : Nat) (c : Component) (run : Nat) (v : Int) : Host.Outcome State Fault Refusal :=
  if 63 < s.dec.k + run then raise .e31 s
  else
    let k := s.dec.k + run
    let c1 := { c with scratch := zeroFill c.scratch s.dec.k run }
    let z := zigzagPos k
    let x := v * ((s.dec.qt[c.tq].q[z]).toNat : Int)
    if inI32 x then
      let c2 := { c1 with scratch := c1.scratch.set z.val x z.isLt }
      let s2 := s.withDec (s.dec.withScratch j c2 (k + 1))
      if k + 1 = 64 then dataUnitComplete s2 j c2 else .next s2
    else raise .e35 (s.withDec (s.dec.withScratch j c1 k))

/-- `AmplitudeStep(c)` once `D.ampn = D.mag` (R137): the value, the DC predictor, and placement. -/
def resolveAmplitude (s : State) (j : Nat) (c : Component) : Host.Outcome State Fault Refusal :=
  let v := amplitudeValue s.dec.mag s.dec.amp.toNat
  if s.dec.k = 0 then
    let p := c.pred + v
    if inI32 p then
      let c' := { c with pred := p }
      addCoef (s.withDec { s.dec.setComp j c' with sub := .magnitude }) j c' s.dec.run p
    else raise .e35 s
  else addCoef (s.withDec { s.dec with sub := .magnitude }) j c s.dec.run v

/-- `EobStep(c)` (R138): the rest of the block is zero and the data unit completes. -/
def eobStep (s : State) (j : Nat) (c : Component) : Host.Outcome State Fault Refusal :=
  let c' := { c with scratch := zeroFill c.scratch s.dec.k (64 - s.dec.k) }
  dataUnitComplete (s.withDec { s.dec.withScratch j c' (max s.dec.k 64) with sub := .magnitude }) j c'

/-- What a symbol or a last amplitude bit completes in the same unit of work (46_host_interface R187; log 1): the amplitude
with no bit left to read is resolved (R137), the rest of a block after EOB is filled (R138). -/
def settle (s : State) : Host.Outcome State Fault Refusal :=
  if s.dec.seg = .scan then
    match s.dec.active with
    | none => .fault .noComponent
    | some (j, c) =>
      match s.dec.sub with
      | .magnitude => .next s
      | .amplitude => if s.dec.ampn < s.dec.mag then .next s else resolveAmplitude s j c
      | .endOfBlockCount => eobStep s j c
  else .next s

/-- `AmplitudeStep(c)` while bits remain (R136), on the bit just read. -/
def amplitudeBit (b : Bool) (d : Decoder) : Decoder :=
  { d with amp := d.amp * 2 + (if b then 1 else 0), ampn := d.ampn + 1 }

end Sys2Proof.Machine
end

