-- ==== Sys2Proof/Machine/Segments.lean ====
section
/-! DEFINITION. The bodies of the segment handlers (40_segments R98 to R106), each on a whole segment. -/

namespace Sys2Proof.Machine

/-! ### DQT (R98) -/

/-- The table entries from zig-zag index `k` on written from bytes in zig-zag order (R98). -/
def loadZigzag (q : Vector Byte 64) (k : Nat) : List Byte → Vector Byte 64
  | [] => q
  | b :: bs => loadZigzag (q.set (zigzagPos k).val b (zigzagPos k).isLt) (k + 1) bs

/-- The entries of a DQT payload from `p` on, at most `fuel` of them (R98): the tables written so far and the error met, if any. -/
def dqtEntries : Nat → List Byte → Vector QTable 4 → Vector QTable 4 × Option Err
  | 0, _, qt => (qt, none)
  | fuel + 1, p, qt =>
    match p with
    | [] => (qt, none)
    | b :: rest =>
      if hiNibble b ≠ 0 then (qt, some .e4)
      else if 3 < (loNibble b).toNat then (qt, some .e5)
      else if rest.length < 64 then (qt, some .e3)
      else
        let tq := Fin.ofNat 4 (loNibble b).toNat
        let table : QTable := { defined := true, q := loadZigzag qt[tq].q 0 (rest.take 64) }
        dqtEntries fuel (rest.drop 64) (qt.set tq.val table tq.isLt)

/-- The DQT handler on a whole segment (R98). Entries accepted before an error stay written (R113). -/
def dqtBody (s : State) (len : Nat) (p : List Byte) : Host.Outcome State Fault Refusal :=
  if p.isEmpty then raise .e3 s
  else
    let r := dqtEntries p.length p s.dec.qt
    let s' := s.withDec { s.dec with qt := r.1 }
    match r.2 with
    | some e => raise e s'
    | none => .next (segRetire len .marker s')

/-! ### SOF (R99, R100) -/

/-- A component's sampling factor is legal (R74, R99). -/
def legalFactor (n : Nat) : Bool := n == 1 || n == 2 || n == 4

/-- The component specifications of a frame header checked in stream order (R99); `seen` are the identifiers before them.
Answers the components (R99's commit), or the first error. -/
def frameComponents (qt : Vector QTable 4) : Nat → Nat → List Byte → List Byte → Except Err (List Component)
  | 0, _, _, _ => .ok []
  | n + 1, index, seen, p =>
    let id := byteAt p 0
    let h := (hiNibble (byteAt p 1)).toNat
    let v := (loNibble (byteAt p 1)).toNat
    let tq := (byteAt p 2).toNat
    if seen.contains id then .error .e10
    else if !(legalFactor h && legalFactor v) then .error .e11
    else if 3 < tq || !qt[Fin.ofNat 4 tq].defined then .error .e12
    else
      match frameComponents qt n (index + 1) (seen ++ [id]) (p.drop 3) with
      | .error e => .error e
      | .ok cs =>
        .ok ({ id := id, index := index, h := h, v := v, tq := Fin.ofNat 4 tq, td := 0, ta := 0, pred := 0, du := 0,
               scratch := Vector.replicate 64 0 } :: cs)

/-- The frame header's checks, in the order of R99: the components, or the first error. -/
def checkFrame (cfg : Params) (d : Decoder) (p : List Byte) : Except Err (List Component) :=
  let height := (fieldU16 p 1).toNat
  let width := (fieldU16 p 3).toNat
  let nf := (byteAt p 5).toNat
  if d.framePresent then .error .e13
  else if p.length < 6 then .error .e3
  else if byteAt p 0 = 12 then .error .e7
  else if byteAt p 0 ≠ 8 then .error .e6
  else if height = 0 ∨ width = 0 then .error .e8
  else if nf < 1 ∨ 4 < nf then .error .e9
  else if p.length ≠ 6 + 3 * nf then .error .e3
  else
    match frameComponents d.qt nf 0 [] (p.drop 6) with
    | .error e => .error e
    | .ok cs => if cfg.maxImageBytes < width * height * nf then .error .e40 else .ok cs

/-- `ceil(a / b)` for a positive `b`. -/
def ceilDiv (a b : Nat) : Nat := (a + b - 1) / b

/-- The largest of the sampling factors (R100). -/
def maxFactor (f : Component → Nat) (cs : List Component) : Nat := (cs.map f).foldl max 0

/-- The frame header's commit (R99) with geometry and allocation (R100). The image's density fields, which R100 leaves unwritten, hold zero
until EOI (log 3). -/
def commitFrame (d : Decoder) (mode : Mode) (p : List Byte) (cs : List Component) : Decoder :=
  let height := fieldU16 p 1
  let width := fieldU16 p 3
  let nf := (byteAt p 5).toNat
  let hmax := maxFactor Component.h cs
  let vmax := maxFactor Component.v cs
  let mcux := ceilDiv width.toNat (8 * hmax)
  let mcuy := ceilDiv height.toNat (8 * vmax)
  { d with
    precision := byteAt p 0
    height := height
    width := width
    nf := nf
    comps := cs
    hmax := hmax
    vmax := vmax
    mcux := mcux
    mcuy := mcuy
    mcuTotal := mcux * mcuy
    img := some { width := width, height := height, ncomp := nf, density := ⟨0, 0, 0⟩, pix := [] } }.flagFrame mode

/-- The SOF handler on a whole segment (R99); `mode` is what its marker code selects. -/
def sofBody (mode : Mode) (s : State) (len : Nat) (p : List Byte) : Host.Outcome State Fault Refusal :=
  match checkFrame s.cfg s.dec p with
  | .error e => raise e s
  | .ok cs => .next (segRetire len .marker (s.withDec (commitFrame s.dec mode p cs)))

/-! ### DHT (R101) -/

/-- The 16 counts of a DHT entry (R75). -/
def countsOf (p : List Byte) : Vector Byte 16 := Vector.ofFn fun l => byteAt p l.val

/-- The number of symbols of a DHT entry (R75). -/
def countTotal (counts : Vector Byte 16) : Nat := (counts.toList.map BitVec.toNat).sum

/-- The decoder with one Huffman table written (R101): class 0 is DC, class 1 is AC. -/
def Decoder.setTable (d : Decoder) (cls : Nat) (t : Fin 4) (h : HuffTable) : Decoder :=
  if cls = 0 then { d with dcTables := d.dcTables.set t.val h t.isLt }
  else { d with acTables := d.acTables.set t.val h t.isLt }

/-- The entries of a DHT payload from `p` on, at most `fuel` of them (R101): the decoder with the tables written so far and the error met, if any. -/
def dhtEntries : Nat → List Byte → Decoder → Decoder × Option Err
  | 0, _, d => (d, none)
  | fuel + 1, p, d =>
    match p with
    | [] => (d, none)
    | b :: rest =>
      let counts := countsOf rest
      let m := countTotal counts
      if rest.length < 16 then (d, some .e3)
      else if 1 < (hiNibble b).toNat || 3 < (loNibble b).toNat then (d, some .e14)
      else if rest.length < 16 + m then (d, some .e3)
      else
        match huffBuild counts ((rest.drop 16).take m) with
        | none => (d, some .e15)
        | some h => dhtEntries fuel (rest.drop (16 + m)) (d.setTable (hiNibble b).toNat (Fin.ofNat 4 (loNibble b).toNat) h)

/-- The DHT handler on a whole segment (R101). Entries accepted before an error stay written (R113). -/
def dhtBody (s : State) (len : Nat) (p : List Byte) : Host.Outcome State Fault Refusal :=
  if p.isEmpty then raise .e3 s
  else
    let r := dhtEntries p.length p s.dec
    match r.2 with
    | some e => raise e (s.withDec r.1)
    | none => .next (segRetire len .marker (s.withDec r.1))

/-! ### SOS (R102, R103) -/

/-- One scan component: the position of its frame component and its two table selectors. -/
structure ScanEntry where
  comp : Nat
  td : Fin 4
  ta : Fin 4
  deriving DecidableEq, Repr

/-- The scan component specifications checked in stream order (R102); `seen` are the positions before them. -/
def scanEntries (d : Decoder) : Nat → List Nat → List Byte → Except Err (List ScanEntry)
  | 0, _, _ => .ok []
  | n + 1, seen, p =>
    let td := (hiNibble (byteAt p 1)).toNat
    let ta := (loNibble (byteAt p 1)).toNat
    match d.comps.findIdx? fun c => c.id == byteAt p 0 with
    | none => .error .e18
    | some i =>
      if seen.contains i then .error .e18
      else if 3 < td || 3 < ta || !d.dcTables[Fin.ofNat 4 td].defined || !d.acTables[Fin.ofNat 4 ta].defined then .error .e19
      else
        match scanEntries d n (seen ++ [i]) (p.drop 2) with
        | .error e => .error e
        | .ok es => .ok (⟨i, Fin.ofNat 4 td, Fin.ofNat 4 ta⟩ :: es)

/-- The scan header's checks, in the order of R102: the scan components, or the first error. -/
def checkScan (d : Decoder) (p : List Byte) : Except Err (List ScanEntry) :=
  let ns := (byteAt p 0).toNat
  if !d.framePresent then .error .e16
  else if d.scanPresent then .error .e24
  else if d.mode = .extended then .error .e20
  else if d.mode = .progressive then .error .e21
  else if d.mode = .lossless then .error .e22
  else if p.length < 1 then .error .e3
  else if ns ≠ d.nf then .error .e17
  else if p.length ≠ 1 + 2 * ns + 3 then .error .e3
  else
    match scanEntries d ns [] (p.drop 1) with
    | .error e => .error e
    | .ok es => if p.drop (1 + 2 * ns) = [0, 63, 0] then .ok es else .error .e23

/-- The per-scan reset of a component (R103). -/
def Component.startScan (c : Component) : Component := { c with pred := 0, du := 0 }

/-- The table selectors of the scan components written (R103). -/
def assignTables : List Component → List ScanEntry → List Component
  | cs, [] => cs
  | cs, e :: es => assignTables (cs.modify e.comp fun c => { c with td := e.td, ta := e.ta }) es

/-- The scan header's commit (R103): predictors, counters and every entropy working register reset, tables and order written. -/
def commitScan (d : Decoder) (es : List ScanEntry) : Decoder :=
  { d with
    comps := assignTables (d.comps.map Component.startScan) es
    ns := es.length
    order := es.map ScanEntry.comp
    ss := 0
    se := 63
    ah := 0
    al := 0
    scanPos := 0
    mcu := 0
    k := 0
    sub := .magnitude
    hcode := 0
    hwidth := 0
    run := 0
    mag := 0
    amp := 0
    ampn := 0
    nbits := 0 }.flagScan

/-- The SOS handler on a whole segment (R102, R103). -/
def sosBody (s : State) (len : Nat) (p : List Byte) : Host.Outcome State Fault Refusal :=
  match checkScan s.dec p with
  | .error e => raise e s
  | .ok es => .next (segRetire len .scan (s.withDec (commitScan s.dec es)))

/-! ### APP0 (R104, R105) and COM (R106) -/

/-- The JFIF fields of an APP0 payload (R104): the version and the density, none when the payload is shorter than its header
or its declared thumbnail (E30). -/
def jfifFields (p : List Byte) : Option ((Byte × Byte) × Density) :=
  if p.length < 14 then none
  else if p.length < 14 + 3 * (byteAt p 12).toNat * (byteAt p 13).toNat then none
  else some ((byteAt p 5, byteAt p 6), ⟨byteAt p 7, fieldU16 p 8, fieldU16 p 10⟩)

/-- The APP0 handler on a whole segment (R104); a payload that is not JFIF writes nothing (R105). -/
def app0Body (s : State) (len : Nat) (p : List Byte) : Host.Outcome State Fault Refusal :=
  if p.take 5 = [0x4A, 0x46, 0x49, 0x46, 0x00] then
    match jfifFields p with
    | none => raise .e30 s
    | some f => .next (segRetire len .marker (s.withDec { s.dec with jfifVersion := some f.1, density := f.2 }))
  else .next (segRetire len .marker s)

/-- The COM handler on a whole segment (R106). -/
def comBody (s : State) (len : Nat) (p : List Byte) : Host.Outcome State Fault Refusal :=
  .next (segRetire len .marker (s.withDec { s.dec with comment := some p }))

/-! ### EOI (R95) -/

/-- EOI after its marker is consumed (R95). -/
def eoiBody (s : State) : Host.Outcome State Fault Refusal :=
  if s.dec.scanComplete then
    match s.dec.img with
    | none => .fault .noImage
    | some img =>
      let img' := { img with density := s.dec.density }
      .next (signalCompletion (.image img') (s.withDec { s.dec with img := some img', seg := .done }))
  else raise .e38 s

end Sys2Proof.Machine
end

