-- ==== Sys2Proof/Machine/Handlers.lean ====
section
/-! DEFINITION. The meanings of the markers that select a handler (40_segments R96), each with its segment handler (R98 to R110).
Such an instruction runs in two units of work, the marker step and the handler, which `D.seg` tells apart (log 15). -/

namespace Sys2Proof.Machine

/-- The marker step of a start-of-frame code (R96): the code latched, the handler selected. -/
def selectSof (code : Byte) (s : State) : Host.Outcome State Fault Refusal :=
  let s' := s.consume 2
  .next ((s'.withDec { s'.dec with sofCode := code }).goto .sof)

/-- A handler's unit of work in its own state, the marker step otherwise. -/
def inHandler (seg : Seg) (s : State) (handler marker : Host.Outcome State Fault Refusal) : Host.Outcome State Fault Refusal :=
  if s.dec.seg = seg then handler else marker

/-- SOF0 (R96, R99, R100). -/
def execSof0 (s : State) : Host.Outcome State Fault Refusal :=
  inHandler .sof s (withSegment s (sofBody .baseline s)) (selectSof 0xC0 s)

/-- SOF1 (R96, R99, R100). -/
def execSof1 (s : State) : Host.Outcome State Fault Refusal :=
  inHandler .sof s (withSegment s (sofBody .extended s)) (selectSof 0xC1 s)

/-- SOF2 (R96, R99, R100). -/
def execSof2 (s : State) : Host.Outcome State Fault Refusal :=
  inHandler .sof s (withSegment s (sofBody .progressive s)) (selectSof 0xC2 s)

/-- SOF3 (R96, R99, R100). -/
def execSof3 (s : State) : Host.Outcome State Fault Refusal :=
  inHandler .sof s (withSegment s (sofBody .lossless s)) (selectSof 0xC3 s)

/-- DHT (R96, R101). -/
def execDht (s : State) : Host.Outcome State Fault Refusal :=
  inHandler .dht s (withSegment s (dhtBody s)) (selectHandler .dht s)

/-- DAC (R96, R107): the whole segment awaited, then E25. -/
def execDac (s : State) : Host.Outcome State Fault Refusal :=
  inHandler .dac s (refuseSegment .e25 s) (selectHandler .dac s)

/-- SOS (R96, R102, R103). -/
def execSos (s : State) : Host.Outcome State Fault Refusal :=
  inHandler .sos s (withSegment s (sosBody s)) (selectHandler .sos s)

/-- DQT (R96, R98). -/
def execDqt (s : State) : Host.Outcome State Fault Refusal :=
  inHandler .dqt s (withSegment s (dqtBody s)) (selectHandler .dqt s)

/-- DNL (R96, R108): the whole segment awaited, then E29. -/
def execDnl (s : State) : Host.Outcome State Fault Refusal :=
  inHandler .dnl s (refuseSegment .e29 s) (selectHandler .dnl s)

/-- DRI (R96, R109): the whole segment awaited, then E2. -/
def execDri (s : State) : Host.Outcome State Fault Refusal :=
  inHandler .dri s (refuseSegment .e2 s) (selectHandler .dri s)

/-- EXP (R96, R110): the whole segment awaited, then E28. -/
def execExp (s : State) : Host.Outcome State Fault Refusal :=
  inHandler .exp s (refuseSegment .e28 s) (selectHandler .exp s)

/-- APP0 (R96, R104, R105). -/
def execApp0 (s : State) : Host.Outcome State Fault Refusal :=
  inHandler .app0 s (withSegment s (app0Body s)) (selectHandler .app0 s)

/-- COM (R96, R106). -/
def execCom (s : State) : Host.Outcome State Fault Refusal :=
  inHandler .com s (withSegment s (comBody s)) (selectHandler .com s)

end Sys2Proof.Machine
end

