-- ==== Sys2Proof/Machine/Markers.lean ====
section
/-! DEFINITION. The meanings of the markers the marker step handles itself: SOI, EOI, and the codes refused at dispatch (40_segments R94, R95, R97). -/

namespace Sys2Proof.Machine

/-- SOI (R94): consumed, the state stays `MARKER`. -/
def execSoi (s : State) : Host.Outcome State Fault Refusal := .next ((s.consume 2).goto .marker)

/-- EOI (R95): the finished image is delivered, or E38. -/
def execEoi (s : State) : Host.Outcome State Fault Refusal := eoiBody (s.consume 2)

/-- INVALID_00 (R97): an unhandled code, E1. -/
def execInvalid00 (s : State) : Host.Outcome State Fault Refusal := refuseMarker .e1 s

/-- TEM (R97): an unhandled code, E1. -/
def execTem (s : State) : Host.Outcome State Fault Refusal := refuseMarker .e1 s

/-- RESERVED_02_03 (R97): an unhandled code, E1. -/
def execReserved02_03 (s : State) : Host.Outcome State Fault Refusal := refuseMarker .e1 s

/-- RESERVED_04_07 (R97): an unhandled code, E1. -/
def execReserved04_07 (s : State) : Host.Outcome State Fault Refusal := refuseMarker .e1 s

/-- RESERVED_08_0F (R97): an unhandled code, E1. -/
def execReserved08_0F (s : State) : Host.Outcome State Fault Refusal := refuseMarker .e1 s

/-- RESERVED_10_1F (R97): an unhandled code, E1. -/
def execReserved10_1F (s : State) : Host.Outcome State Fault Refusal := refuseMarker .e1 s

/-- RESERVED_20_3F (R97): an unhandled code, E1. -/
def execReserved20_3F (s : State) : Host.Outcome State Fault Refusal := refuseMarker .e1 s

/-- RESERVED_40_7F (R97): an unhandled code, E1. -/
def execReserved40_7F (s : State) : Host.Outcome State Fault Refusal := refuseMarker .e1 s

/-- RESERVED_80_BF (R97): an unhandled code, E1. -/
def execReserved80_BF (s : State) : Host.Outcome State Fault Refusal := refuseMarker .e1 s

/-- SOF5 (R97): a differential or hierarchical process, E26. -/
def execSof5 (s : State) : Host.Outcome State Fault Refusal := refuseMarker .e26 s

/-- SOF6 (R97): a differential or hierarchical process, E26. -/
def execSof6 (s : State) : Host.Outcome State Fault Refusal := refuseMarker .e26 s

/-- SOF7 (R97): a differential or hierarchical process, E26. -/
def execSof7 (s : State) : Host.Outcome State Fault Refusal := refuseMarker .e26 s

/-- JPG (R97): an unhandled code, E1. -/
def execJpg (s : State) : Host.Outcome State Fault Refusal := refuseMarker .e1 s

/-- SOF9 (R97): arithmetic coding, E25. -/
def execSof9 (s : State) : Host.Outcome State Fault Refusal := refuseMarker .e25 s

/-- SOF10 (R97): arithmetic coding, E25. -/
def execSof10 (s : State) : Host.Outcome State Fault Refusal := refuseMarker .e25 s

/-- SOF11 (R97): arithmetic coding, E25. -/
def execSof11 (s : State) : Host.Outcome State Fault Refusal := refuseMarker .e25 s

/-- SOF13 (R97): arithmetic coding, E25. -/
def execSof13 (s : State) : Host.Outcome State Fault Refusal := refuseMarker .e25 s

/-- SOF14 (R97): arithmetic coding, E25. -/
def execSof14 (s : State) : Host.Outcome State Fault Refusal := refuseMarker .e25 s

/-- SOF15 (R97): arithmetic coding, E25. -/
def execSof15 (s : State) : Host.Outcome State Fault Refusal := refuseMarker .e25 s

/-- RST (R97): a restart marker, E2. -/
def execRst (s : State) : Host.Outcome State Fault Refusal := refuseMarker .e2 s

/-- DHP (R97): a differential or hierarchical process, E26. -/
def execDhp (s : State) : Host.Outcome State Fault Refusal := refuseMarker .e26 s

/-- APP1 (R97): an unhandled code, E1. -/
def execApp1 (s : State) : Host.Outcome State Fault Refusal := refuseMarker .e1 s

/-- APP2 (R97): an unhandled code, E1. -/
def execApp2 (s : State) : Host.Outcome State Fault Refusal := refuseMarker .e1 s

/-- APP3 (R97): an unhandled code, E1. -/
def execApp3 (s : State) : Host.Outcome State Fault Refusal := refuseMarker .e1 s

/-- APP4 (R97): an unhandled code, E1. -/
def execApp4 (s : State) : Host.Outcome State Fault Refusal := refuseMarker .e1 s

/-- APP5 (R97): an unhandled code, E1. -/
def execApp5 (s : State) : Host.Outcome State Fault Refusal := refuseMarker .e1 s

/-- APP6 (R97): an unhandled code, E1. -/
def execApp6 (s : State) : Host.Outcome State Fault Refusal := refuseMarker .e1 s

/-- APP7 (R97): an unhandled code, E1. -/
def execApp7 (s : State) : Host.Outcome State Fault Refusal := refuseMarker .e1 s

/-- APP8 (R97): an unhandled code, E1. -/
def execApp8 (s : State) : Host.Outcome State Fault Refusal := refuseMarker .e1 s

/-- APP9 (R97): an unhandled code, E1. -/
def execApp9 (s : State) : Host.Outcome State Fault Refusal := refuseMarker .e1 s

/-- APP10 (R97): an unhandled code, E1. -/
def execApp10 (s : State) : Host.Outcome State Fault Refusal := refuseMarker .e1 s

/-- APP11 (R97): an unhandled code, E1. -/
def execApp11 (s : State) : Host.Outcome State Fault Refusal := refuseMarker .e1 s

/-- APP12 (R97): an unhandled code, E1. -/
def execApp12 (s : State) : Host.Outcome State Fault Refusal := refuseMarker .e1 s

/-- APP13 (R97): an unhandled code, E1. -/
def execApp13 (s : State) : Host.Outcome State Fault Refusal := refuseMarker .e1 s

/-- APP14 (R97): an unhandled code, E1. -/
def execApp14 (s : State) : Host.Outcome State Fault Refusal := refuseMarker .e1 s

/-- APP15 (R97): an unhandled code, E1. -/
def execApp15 (s : State) : Host.Outcome State Fault Refusal := refuseMarker .e1 s

/-- JPG0 (R97): an unhandled code, E1. -/
def execJpg0 (s : State) : Host.Outcome State Fault Refusal := refuseMarker .e1 s

/-- JPG1 (R97): an unhandled code, E1. -/
def execJpg1 (s : State) : Host.Outcome State Fault Refusal := refuseMarker .e1 s

/-- JPG2 (R97): an unhandled code, E1. -/
def execJpg2 (s : State) : Host.Outcome State Fault Refusal := refuseMarker .e1 s

/-- JPG3 (R97): an unhandled code, E1. -/
def execJpg3 (s : State) : Host.Outcome State Fault Refusal := refuseMarker .e1 s

/-- JPG4 (R97): an unhandled code, E1. -/
def execJpg4 (s : State) : Host.Outcome State Fault Refusal := refuseMarker .e1 s

/-- JPG5 (R97): an unhandled code, E1. -/
def execJpg5 (s : State) : Host.Outcome State Fault Refusal := refuseMarker .e1 s

/-- JPG6 (R97): an unhandled code, E1. -/
def execJpg6 (s : State) : Host.Outcome State Fault Refusal := refuseMarker .e1 s

/-- JPG7 (R97): an unhandled code, E1. -/
def execJpg7 (s : State) : Host.Outcome State Fault Refusal := refuseMarker .e1 s

/-- JPG8 (R97): an unhandled code, E1. -/
def execJpg8 (s : State) : Host.Outcome State Fault Refusal := refuseMarker .e1 s

/-- JPG9 (R97): an unhandled code, E1. -/
def execJpg9 (s : State) : Host.Outcome State Fault Refusal := refuseMarker .e1 s

/-- JPG10 (R97): an unhandled code, E1. -/
def execJpg10 (s : State) : Host.Outcome State Fault Refusal := refuseMarker .e1 s

/-- JPG11 (R97): an unhandled code, E1. -/
def execJpg11 (s : State) : Host.Outcome State Fault Refusal := refuseMarker .e1 s

/-- JPG12 (R97): an unhandled code, E1. -/
def execJpg12 (s : State) : Host.Outcome State Fault Refusal := refuseMarker .e1 s

/-- JPG13 (R97): an unhandled code, E1. -/
def execJpg13 (s : State) : Host.Outcome State Fault Refusal := refuseMarker .e1 s

/-- FILL_FF (R97): an unhandled code, E1. -/
def execFillFF (s : State) : Host.Outcome State Fault Refusal := refuseMarker .e1 s

end Sys2Proof.Machine
end

