-- ==== Sys2Proof/Machine/Symbols.lean ====
section
/-! DEFINITION. The meanings of the DC size symbols and AC run/size symbols (42_entropy R129 to R135), on the state in which the symbol's
last bit has been read. What the symbol completes is `settle` (R136 to R139). -/

namespace Sys2Proof.Machine

/-- A symbol followed by `mag` amplitude bits after `run` zeros (R129, R131, R133). -/
def startAmplitude (run mag : Nat) (s : State) : Host.Outcome State Fault Refusal :=
  .next (s.withDec { s.dec with run := run, mag := mag, amp := 0, ampn := 0, sub := .amplitude })

/-- DC_SIZE_0 (R129). -/
def execDcSize0 (s : State) : Host.Outcome State Fault Refusal := startAmplitude 0 0 s

/-- DC_SIZE_1 (R129). -/
def execDcSize1 (s : State) : Host.Outcome State Fault Refusal := startAmplitude 0 1 s

/-- DC_SIZE_2 (R129). -/
def execDcSize2 (s : State) : Host.Outcome State Fault Refusal := startAmplitude 0 2 s

/-- DC_SIZE_3 (R129). -/
def execDcSize3 (s : State) : Host.Outcome State Fault Refusal := startAmplitude 0 3 s

/-- DC_SIZE_4 (R129). -/
def execDcSize4 (s : State) : Host.Outcome State Fault Refusal := startAmplitude 0 4 s

/-- DC_SIZE_5 (R129). -/
def execDcSize5 (s : State) : Host.Outcome State Fault Refusal := startAmplitude 0 5 s

/-- DC_SIZE_6 (R129). -/
def execDcSize6 (s : State) : Host.Outcome State Fault Refusal := startAmplitude 0 6 s

/-- DC_SIZE_7 (R129). -/
def execDcSize7 (s : State) : Host.Outcome State Fault Refusal := startAmplitude 0 7 s

/-- DC_SIZE_8 (R129). -/
def execDcSize8 (s : State) : Host.Outcome State Fault Refusal := startAmplitude 0 8 s

/-- DC_SIZE_9 (R129). -/
def execDcSize9 (s : State) : Host.Outcome State Fault Refusal := startAmplitude 0 9 s

/-- DC_SIZE_10 (R129). -/
def execDcSize10 (s : State) : Host.Outcome State Fault Refusal := startAmplitude 0 10 s

/-- DC_SIZE_11 (R129). -/
def execDcSize11 (s : State) : Host.Outcome State Fault Refusal := startAmplitude 0 11 s

/-- DC_ILLEGAL_0C_0F (R130): E33. -/
def execDcIllegal0C_0F (s : State) : Host.Outcome State Fault Refusal := raise .e33 s

/-- DC_ILLEGAL_10_1F (R130): E33. -/
def execDcIllegal10_1F (s : State) : Host.Outcome State Fault Refusal := raise .e33 s

/-- DC_ILLEGAL_20_3F (R130): E33. -/
def execDcIllegal20_3F (s : State) : Host.Outcome State Fault Refusal := raise .e33 s

/-- DC_ILLEGAL_40_7F (R130): E33. -/
def execDcIllegal40_7F (s : State) : Host.Outcome State Fault Refusal := raise .e33 s

/-- DC_ILLEGAL_80_FF (R130): E33. -/
def execDcIllegal80_FF (s : State) : Host.Outcome State Fault Refusal := raise .e33 s

/-- AC_EOB (R132). -/
def execAcEob (s : State) : Host.Outcome State Fault Refusal :=
  .next (s.withDec { s.dec with sub := .endOfBlockCount })

/-- AC_ZRL (R133). -/
def execAcZrl (s : State) : Host.Outcome State Fault Refusal := startAmplitude 15 0 s

/-- AC_EOBRUN_1 (R134): E34. -/
def execAcEobRun1 (s : State) : Host.Outcome State Fault Refusal := raise .e34 s

/-- AC_EOBRUN_2 (R134): E34. -/
def execAcEobRun2 (s : State) : Host.Outcome State Fault Refusal := raise .e34 s

/-- AC_EOBRUN_3 (R134): E34. -/
def execAcEobRun3 (s : State) : Host.Outcome State Fault Refusal := raise .e34 s

/-- AC_EOBRUN_4 (R134): E34. -/
def execAcEobRun4 (s : State) : Host.Outcome State Fault Refusal := raise .e34 s

/-- AC_EOBRUN_5 (R134): E34. -/
def execAcEobRun5 (s : State) : Host.Outcome State Fault Refusal := raise .e34 s

/-- AC_EOBRUN_6 (R134): E34. -/
def execAcEobRun6 (s : State) : Host.Outcome State Fault Refusal := raise .e34 s

/-- AC_EOBRUN_7 (R134): E34. -/
def execAcEobRun7 (s : State) : Host.Outcome State Fault Refusal := raise .e34 s

/-- AC_EOBRUN_8 (R134): E34. -/
def execAcEobRun8 (s : State) : Host.Outcome State Fault Refusal := raise .e34 s

/-- AC_EOBRUN_9 (R134): E34. -/
def execAcEobRun9 (s : State) : Host.Outcome State Fault Refusal := raise .e34 s

/-- AC_EOBRUN_10 (R134): E34. -/
def execAcEobRun10 (s : State) : Host.Outcome State Fault Refusal := raise .e34 s

/-- AC_EOBRUN_11 (R134): E34. -/
def execAcEobRun11 (s : State) : Host.Outcome State Fault Refusal := raise .e34 s

/-- AC_EOBRUN_12 (R134): E34. -/
def execAcEobRun12 (s : State) : Host.Outcome State Fault Refusal := raise .e34 s

/-- AC_EOBRUN_13 (R134): E34. -/
def execAcEobRun13 (s : State) : Host.Outcome State Fault Refusal := raise .e34 s

/-- AC_EOBRUN_14 (R134): E34. -/
def execAcEobRun14 (s : State) : Host.Outcome State Fault Refusal := raise .e34 s

/-- AC_RUN_SIZE_1 (R131). -/
def execAcRunSize1 (r : BitVec 4) (s : State) : Host.Outcome State Fault Refusal := startAmplitude r.toNat 1 s

/-- AC_RUN_SIZE_2 (R131). -/
def execAcRunSize2 (r : BitVec 4) (s : State) : Host.Outcome State Fault Refusal := startAmplitude r.toNat 2 s

/-- AC_RUN_SIZE_3 (R131). -/
def execAcRunSize3 (r : BitVec 4) (s : State) : Host.Outcome State Fault Refusal := startAmplitude r.toNat 3 s

/-- AC_RUN_SIZE_4 (R131). -/
def execAcRunSize4 (r : BitVec 4) (s : State) : Host.Outcome State Fault Refusal := startAmplitude r.toNat 4 s

/-- AC_RUN_SIZE_5 (R131). -/
def execAcRunSize5 (r : BitVec 4) (s : State) : Host.Outcome State Fault Refusal := startAmplitude r.toNat 5 s

/-- AC_RUN_SIZE_6 (R131). -/
def execAcRunSize6 (r : BitVec 4) (s : State) : Host.Outcome State Fault Refusal := startAmplitude r.toNat 6 s

/-- AC_RUN_SIZE_7 (R131). -/
def execAcRunSize7 (r : BitVec 4) (s : State) : Host.Outcome State Fault Refusal := startAmplitude r.toNat 7 s

/-- AC_RUN_SIZE_8 (R131). -/
def execAcRunSize8 (r : BitVec 4) (s : State) : Host.Outcome State Fault Refusal := startAmplitude r.toNat 8 s

/-- AC_RUN_SIZE_9 (R131). -/
def execAcRunSize9 (r : BitVec 4) (s : State) : Host.Outcome State Fault Refusal := startAmplitude r.toNat 9 s

/-- AC_RUN_SIZE_10 (R131). -/
def execAcRunSize10 (r : BitVec 4) (s : State) : Host.Outcome State Fault Refusal := startAmplitude r.toNat 10 s

/-- AC_ILLEGAL_SIZE_11 (R135): E33. -/
def execAcIllegalSize11 (s : State) : Host.Outcome State Fault Refusal := raise .e33 s

/-- AC_ILLEGAL_SIZE_12_15 (R135): E33. -/
def execAcIllegalSize12_15 (s : State) : Host.Outcome State Fault Refusal := raise .e33 s

end Sys2Proof.Machine
end

