-- ==== Sys2Proof/Machine/Dispatch.lean ====
section
/-! DEFINITION. The dispatch: one arm per constructor of Instr. -/

namespace Sys2Proof.Machine

def exec (i : Instr) (s : State) : Host.Outcome State Fault Refusal :=
  match i with
  | .invalid00 => Sys2Proof.Machine.execInvalid00 s
  | .tem => Sys2Proof.Machine.execTem s
  | .reserved02_03 _ => Sys2Proof.Machine.execReserved02_03 s
  | .reserved04_07 _ => Sys2Proof.Machine.execReserved04_07 s
  | .reserved08_0F _ => Sys2Proof.Machine.execReserved08_0F s
  | .reserved10_1F _ => Sys2Proof.Machine.execReserved10_1F s
  | .reserved20_3F _ => Sys2Proof.Machine.execReserved20_3F s
  | .reserved40_7F _ => Sys2Proof.Machine.execReserved40_7F s
  | .reserved80_BF _ => Sys2Proof.Machine.execReserved80_BF s
  | .sof0 => Sys2Proof.Machine.execSof0 s
  | .sof1 => Sys2Proof.Machine.execSof1 s
  | .sof2 => Sys2Proof.Machine.execSof2 s
  | .sof3 => Sys2Proof.Machine.execSof3 s
  | .dht => Sys2Proof.Machine.execDht s
  | .sof5 => Sys2Proof.Machine.execSof5 s
  | .sof6 => Sys2Proof.Machine.execSof6 s
  | .sof7 => Sys2Proof.Machine.execSof7 s
  | .jpg => Sys2Proof.Machine.execJpg s
  | .sof9 => Sys2Proof.Machine.execSof9 s
  | .sof10 => Sys2Proof.Machine.execSof10 s
  | .sof11 => Sys2Proof.Machine.execSof11 s
  | .dac => Sys2Proof.Machine.execDac s
  | .sof13 => Sys2Proof.Machine.execSof13 s
  | .sof14 => Sys2Proof.Machine.execSof14 s
  | .sof15 => Sys2Proof.Machine.execSof15 s
  | .rst _ => Sys2Proof.Machine.execRst s
  | .soi => Sys2Proof.Machine.execSoi s
  | .eoi => Sys2Proof.Machine.execEoi s
  | .sos => Sys2Proof.Machine.execSos s
  | .dqt => Sys2Proof.Machine.execDqt s
  | .dnl => Sys2Proof.Machine.execDnl s
  | .dri => Sys2Proof.Machine.execDri s
  | .dhp => Sys2Proof.Machine.execDhp s
  | .exp => Sys2Proof.Machine.execExp s
  | .app0 => Sys2Proof.Machine.execApp0 s
  | .app1 => Sys2Proof.Machine.execApp1 s
  | .app2 => Sys2Proof.Machine.execApp2 s
  | .app3 => Sys2Proof.Machine.execApp3 s
  | .app4 => Sys2Proof.Machine.execApp4 s
  | .app5 => Sys2Proof.Machine.execApp5 s
  | .app6 => Sys2Proof.Machine.execApp6 s
  | .app7 => Sys2Proof.Machine.execApp7 s
  | .app8 => Sys2Proof.Machine.execApp8 s
  | .app9 => Sys2Proof.Machine.execApp9 s
  | .app10 => Sys2Proof.Machine.execApp10 s
  | .app11 => Sys2Proof.Machine.execApp11 s
  | .app12 => Sys2Proof.Machine.execApp12 s
  | .app13 => Sys2Proof.Machine.execApp13 s
  | .app14 => Sys2Proof.Machine.execApp14 s
  | .app15 => Sys2Proof.Machine.execApp15 s
  | .jpg0 => Sys2Proof.Machine.execJpg0 s
  | .jpg1 => Sys2Proof.Machine.execJpg1 s
  | .jpg2 => Sys2Proof.Machine.execJpg2 s
  | .jpg3 => Sys2Proof.Machine.execJpg3 s
  | .jpg4 => Sys2Proof.Machine.execJpg4 s
  | .jpg5 => Sys2Proof.Machine.execJpg5 s
  | .jpg6 => Sys2Proof.Machine.execJpg6 s
  | .jpg7 => Sys2Proof.Machine.execJpg7 s
  | .jpg8 => Sys2Proof.Machine.execJpg8 s
  | .jpg9 => Sys2Proof.Machine.execJpg9 s
  | .jpg10 => Sys2Proof.Machine.execJpg10 s
  | .jpg11 => Sys2Proof.Machine.execJpg11 s
  | .jpg12 => Sys2Proof.Machine.execJpg12 s
  | .jpg13 => Sys2Proof.Machine.execJpg13 s
  | .com => Sys2Proof.Machine.execCom s
  | .fillFF => Sys2Proof.Machine.execFillFF s
  | .dcSize0 => Sys2Proof.Machine.execDcSize0 s
  | .dcSize1 => Sys2Proof.Machine.execDcSize1 s
  | .dcSize2 => Sys2Proof.Machine.execDcSize2 s
  | .dcSize3 => Sys2Proof.Machine.execDcSize3 s
  | .dcSize4 => Sys2Proof.Machine.execDcSize4 s
  | .dcSize5 => Sys2Proof.Machine.execDcSize5 s
  | .dcSize6 => Sys2Proof.Machine.execDcSize6 s
  | .dcSize7 => Sys2Proof.Machine.execDcSize7 s
  | .dcSize8 => Sys2Proof.Machine.execDcSize8 s
  | .dcSize9 => Sys2Proof.Machine.execDcSize9 s
  | .dcSize10 => Sys2Proof.Machine.execDcSize10 s
  | .dcSize11 => Sys2Proof.Machine.execDcSize11 s
  | .dcIllegal0C_0F _ => Sys2Proof.Machine.execDcIllegal0C_0F s
  | .dcIllegal10_1F _ => Sys2Proof.Machine.execDcIllegal10_1F s
  | .dcIllegal20_3F _ => Sys2Proof.Machine.execDcIllegal20_3F s
  | .dcIllegal40_7F _ => Sys2Proof.Machine.execDcIllegal40_7F s
  | .dcIllegal80_FF _ => Sys2Proof.Machine.execDcIllegal80_FF s
  | .acEob => Sys2Proof.Machine.execAcEob s
  | .acZrl => Sys2Proof.Machine.execAcZrl s
  | .acEobRun1 => Sys2Proof.Machine.execAcEobRun1 s
  | .acEobRun2 => Sys2Proof.Machine.execAcEobRun2 s
  | .acEobRun3 => Sys2Proof.Machine.execAcEobRun3 s
  | .acEobRun4 => Sys2Proof.Machine.execAcEobRun4 s
  | .acEobRun5 => Sys2Proof.Machine.execAcEobRun5 s
  | .acEobRun6 => Sys2Proof.Machine.execAcEobRun6 s
  | .acEobRun7 => Sys2Proof.Machine.execAcEobRun7 s
  | .acEobRun8 => Sys2Proof.Machine.execAcEobRun8 s
  | .acEobRun9 => Sys2Proof.Machine.execAcEobRun9 s
  | .acEobRun10 => Sys2Proof.Machine.execAcEobRun10 s
  | .acEobRun11 => Sys2Proof.Machine.execAcEobRun11 s
  | .acEobRun12 => Sys2Proof.Machine.execAcEobRun12 s
  | .acEobRun13 => Sys2Proof.Machine.execAcEobRun13 s
  | .acEobRun14 => Sys2Proof.Machine.execAcEobRun14 s
  | .acRunSize1 r => Sys2Proof.Machine.execAcRunSize1 r s
  | .acRunSize2 r => Sys2Proof.Machine.execAcRunSize2 r s
  | .acRunSize3 r => Sys2Proof.Machine.execAcRunSize3 r s
  | .acRunSize4 r => Sys2Proof.Machine.execAcRunSize4 r s
  | .acRunSize5 r => Sys2Proof.Machine.execAcRunSize5 r s
  | .acRunSize6 r => Sys2Proof.Machine.execAcRunSize6 r s
  | .acRunSize7 r => Sys2Proof.Machine.execAcRunSize7 r s
  | .acRunSize8 r => Sys2Proof.Machine.execAcRunSize8 r s
  | .acRunSize9 r => Sys2Proof.Machine.execAcRunSize9 r s
  | .acRunSize10 r => Sys2Proof.Machine.execAcRunSize10 r s
  | .acIllegalSize11 _ => Sys2Proof.Machine.execAcIllegalSize11 s
  | .acIllegalSize12_15 _ _ => Sys2Proof.Machine.execAcIllegalSize12_15 s

end Sys2Proof.Machine
end

