-- ==== Sys2Proof/Machine/Scan.lean ====
section
/-! DEFINITION. The scan's unit of work (42_entropy R127, R128; 46_host_interface R187). -/

namespace Sys2Proof.Machine

/-- An outcome continued from its next state. -/
def andThen (o : Host.Outcome State Fault Refusal) (f : State → Host.Outcome State Fault Refusal) :
    Host.Outcome State Fault Refusal :=
  match o with
  | .next s => f s
  | .fault r => .fault r
  | .refused r => .refused r

/-- The table a Huffman code is looked up in (R128): the DC table at coefficient index 0, else the AC table. -/
def currentTable (d : Decoder) (c : Component) : HuffTable :=
  if d.k = 0 then d.dcTables[c.td] else d.acTables[c.ta]

/-- The partial Huffman code with one more bit (R128). -/
def appendCodeBit (b : Bool) (d : Decoder) : Decoder :=
  { d with hcode := d.hcode * 2 + (if b then 1 else 0), hwidth := d.hwidth + 1 }

/-- The partial Huffman code cleared after a symbol (R128). -/
def clearCode (d : Decoder) : Decoder := { d with hcode := 0, hwidth := 0 }

/-- `MagnitudeStep(c)` after its bit (R128): the lookup, and the symbol's instruction when the code is complete. -/
def magnitudeBit (s : State) (c : Component) (b : Bool) : Host.Outcome State Fault Refusal :=
  let s1 := s.withDec (appendCodeBit b s.dec)
  match huffStep (currentTable s1.dec c) s1.dec.hcode s1.dec.hwidth with
  | .more => .next s1
  | .error e => raise e s1
  | .symbol v => andThen (exec (decodeSymbol s1.dec.k v) (s1.withDec (clearCode s1.dec))) settle

/-- A step that needs a bit (R125, R126, R13): its body on the bit, or a marker, a hold, a model fault. -/
def withBit (s : State) (body : Bool → State → Host.Outcome State Fault Refusal) : Host.Outcome State Fault Refusal :=
  match readBit s.dec with
  | .bit b d => body b (s.withDec d)
  | .markerSeen d => .next (s.withDec d)
  | .hold => needMore s
  | .hole a => .fault (.inputHole a)

/-- One unit of work in `SCAN`: one bit and everything it completes (R127, R187; log 1). -/
def scanUnit (s : State) : Host.Outcome State Fault Refusal :=
  match s.dec.active with
  | none => .fault .noComponent
  | some (j, c) =>
    match s.dec.sub with
    | .magnitude => withBit s fun b s1 => magnitudeBit s1 c b
    | .amplitude =>
      if s.dec.ampn < s.dec.mag then withBit s fun b s1 => settle (s1.withDec (amplitudeBit b s1.dec))
      else resolveAmplitude s j c
    | .endOfBlockCount => eobStep s j c

end Sys2Proof.Machine
end

