-- ==== Sys2Proof/Machine/Driver.lean ====
section
/-! DEFINITION. The driver (46_host_interface R187), the host's operations (R185 to R193), and the placing of an instruction where the step
fetches it. -/

namespace Sys2Proof.Machine

/-! ### The units of work (R187) -/

/-- The MARKER step (40_segments R93): two bytes, E1 when the first is not `FF`, else the marker's instruction. -/
def markerUnit (s : State) : Host.Outcome State Fault Refusal :=
  if s.dec.avail < s.dec.pos + 2 then needMore s
  else
    match Memory.read s.dec.input s.dec.pos, Memory.read s.dec.input (s.dec.pos + 1) with
    | some b0, some c =>
      match decodeMarker b0 c with
      | .ok i => exec i s
      | .error _ => raise .e1 s
    | none, _ => .fault (.inputHole s.dec.pos)
    | some _, none => .fault (.inputHole (s.dec.pos + 1))

/-- The start-of-frame instruction that `D.sof_code` names (10_state R22). -/
def sofInstr (code : Byte) : Option Instr :=
  if code = 0xC0 then some .sof0
  else if code = 0xC1 then some .sof1
  else if code = 0xC2 then some .sof2
  else if code = 0xC3 then some .sof3
  else none

/-- The unit of work of the current segment state (R187). -/
def unitOfWork (s : State) : Host.Outcome State Fault Refusal :=
  match s.dec.seg with
  | .marker => markerUnit s
  | .dqt => exec .dqt s
  | .dnl => exec .dnl s
  | .dri => exec .dri s
  | .exp => exec .exp s
  | .sof =>
    match sofInstr s.dec.sofCode with
    | some i => exec i s
    | none => .fault .noSofCode
  | .dht => exec .dht s
  | .dac => exec .dac s
  | .sos => exec .sos s
  | .scan => scanUnit s
  | .app0 => exec .app0 s
  | .com => exec .com s
  | .done => .next (feedReturn s)
  | .error => .next (feedReturn s)

/-- One turn of `Run()`'s loop (R187): the return in a final state, the cancellation check, one unit of work. -/
def runTurn (s : State) : Host.Outcome State Fault Refusal :=
  if s.dec.seg.final then .next (feedReturn s)
  else if s.dec.cancel then raise .e39 s
  else unitOfWork s

/-! ### The host's operations (R185 to R193) -/

/-- A value returned to the host. -/
def reply (r : Reply) (s : State) : State := { s with host := { s.host with replies := s.host.replies ++ [r] } }

/-- The oldest pending operation taken (log 12). -/
def takeOp (ops : List HostOp) (s : State) : State := { s with host := { s.host with pending := ops } }

/-- `Construct()` (R185): a fresh decoder in place of the old one (60_exceptions R203). -/
def hostConstruct (s : State) : State := s.withDec Decoder.reset

/-- The input and flags of a feed that is accepted (R186). -/
def Decoder.supply (d : Decoder) (bytes : List Byte) (eos : Bool) : Decoder :=
  { d with input := Memory.writeBytes d.input d.avail bytes, avail := d.avail + bytes.length, eos := d.eos || eos }

/-- `Feed(bytes, eos)` up to its call of `Run()` (R186): `Result()` at once in a final state or after end of stream, else the bytes
appended and the driver started. -/
def hostFeed (bytes : List Byte) (eos : Bool) (s : State) : State :=
  if s.dec.seg.final then reply (.feed (feedResult s.dec)) s
  else if s.dec.eos && !bytes.isEmpty then reply (.feed (feedResult s.dec)) s
  else
    let s' := s.withDec (s.dec.supply bytes eos)
    { s' with host := { s'.host with running := true } }

/-- `Cancel()` (R189). -/
def hostCancel (s : State) : State :=
  if s.dec.seg.final then s else errorEntry .e39 (s.withDec { s.dec with cancel := true })

/-- `get_image()` (R191). -/
def getImage (d : Decoder) : Option Image := if d.seg = .done then d.img else none

/-- `get_error()` (R191). -/
def getError (d : Decoder) : Option Err := if d.seg = .error then d.error else none

/-- `get_comment()` (R191). -/
def getComment (d : Decoder) : Option (List Byte) := if d.seg = .done then d.comment else none

/-- `ConstructEncoder(image)` (R193). -/
def hostConstructEncoder (img : SrcImage) (s : State) : State := { s with enc := some (Encoder.construct img) }

/-- `encode()` on the constructed encoder (R193). -/
def hostEncode (e : Encoder) (s : State) : State :=
  match Encoder.encode s.cfg e with
  | .ok e' => reply .encodeOk { s with enc := some e' }
  | .refuse r e' => reply (.encodeRefused r) { s with enc := some e' }

/-- One host operation. -/
def hostStep (op : HostOp) (s : State) : Host.Outcome State Fault Refusal :=
  match op with
  | .construct => .next (hostConstruct s)
  | .feed bytes eos => .next (hostFeed bytes eos s)
  | .cancel => .next (hostCancel s)
  | .getImage => .next (reply (.image (getImage s.dec)) s)
  | .getError => .next (reply (.error (getError s.dec)) s)
  | .getComment => .next (reply (.comment (getComment s.dec)) s)
  | .consumed => .next (reply (.consumed s.dec.pos) s)
  | .decodeSync bytes => .next (hostFeed bytes true (hostConstruct s))
  | .constructEncoder img => .next (hostConstructEncoder img s)
  | .encode =>
    match s.enc with
    | some e => .next (hostEncode e s)
    | none => .refused .noEncoder

/-! ### Placing an instruction (log 13) -/

/-- Bytes supplied at the position the decoder reads next, in a running Feed. -/
def loadBytes (bytes : List Byte) (s : State) : State :=
  let d := { s.dec with input := Memory.writeBytes s.dec.input s.dec.pos bytes, avail := s.dec.pos + bytes.length, cancel := false }
  { s.withDec d with host := { s.host with running := true } }

/-- A marker placed where the next marker step reads it. -/
def loadMarker (bytes : List Byte) (s : State) : State :=
  let s' := loadBytes bytes s
  s'.goto .marker

/-- A table with the one code `"0"` for a symbol value (R114). -/
def oneCodeTable (v : Byte) : HuffTable :=
  stdTable #v[1, 0, 0, 0, 0, 0, 0, 0, 0, 0, 0, 0, 0, 0, 0, 0] [v]

/-- A frame and scan of one 8x8 block of one component, at coefficient index 1, for a symbol to be read in. -/
def symbolContext (d : Decoder) (v : Byte) : Decoder :=
  { d with
    seg := .scan
    sub := .magnitude
    mode := .baseline
    framePresent := true
    precision := 8
    height := 8
    width := 8
    nf := 1
    hmax := 1
    vmax := 1
    mcux := 1
    mcuy := 1
    mcuTotal := 1
    comps := [{ id := 1, index := 0, h := 1, v := 1, tq := 0, td := 0, ta := 0, pred := 0, du := 0, scratch := Vector.replicate 64 0 }]
    img := some { width := 8, height := 8, ncomp := 1, density := ⟨0, 0, 0⟩, pix := [] }
    scanPresent := true
    scanComplete := false
    ns := 1
    order := [0]
    ss := 0
    se := 63
    ah := 0
    al := 0
    scanPos := 0
    mcu := 0
    k := 1
    hcode := 0
    hwidth := 0
    nbits := 0
    qt := d.qt.set 0 { defined := true, q := Vector.replicate 64 1 }
    dcTables := d.dcTables.set 0 (oneCodeTable 0)
    acTables := d.acTables.set 0 (oneCodeTable v) }

/-- An AC symbol placed where the next unit of work of the scan reads it: the code `"0"` of its table, carried by the byte `7F`. -/
def loadSymbol (v : Byte) (s : State) : State :=
  let s' := loadBytes [0x7F] s
  s'.withDec (symbolContext s'.dec v)

/-- The instruction whose table word is `w` placed where the step fetches its next instruction. -/
def loadTableWord (nbits w : Nat) (s : State) : State :=
  match tableKind nbits with
  | some .marker => loadMarker (tableBytes nbits w) s
  | some .dcSymbol => loadSymbol (BitVec.ofNat 8 w) s
  | some .acSymbol => loadSymbol (BitVec.ofNat 8 w) s
  | none => loadMarker (tableBytes nbits w) s

end Sys2Proof.Machine
end

