-- ==== Sys2Proof/Machine/Step.lean ====
section
/-! DEFINITION. One step of the machine. -/

namespace Sys2Proof.Machine

/-- One step: a turn of the running Feed's loop (46_host_interface R187), else the host's oldest pending operation, else nothing
(60_exceptions R207; log 12, log 14). -/
def step (s : State) : Host.Outcome State Fault Refusal :=
  if s.host.running then runTurn s
  else
    match s.host.pending with
    | [] => .next s
    | op :: ops => hostStep op (takeOp ops s)

/-- `s` with the instruction whose bits, as spec/opcode_table.json numbers them, are `w`, placed so that the next step runs it (log 13). -/
def State.withFetchWord (s : State) (nbits w : Nat) : State := loadTableWord nbits w s

end Sys2Proof.Machine
end

