-- ==== Sys2Proof/Machine/Errors.lean ====
section
/-! DEFINITION. The class and the message of each error code (60_exceptions R197, R198), which the error object carries beside the code. -/

namespace Sys2Proof.Machine

/-- The classes of R197: malformed segment, unsupported feature, entropy structure, end of stream, host, resource. -/
inductive ErrClass where
  | malformedSegment | unsupportedFeature | entropyStructure | endOfStream | host | resource
  deriving DecidableEq, Repr

/-- The class column of R198; `e27` is reserved and has none. -/
def Err.errClass : Err → Option ErrClass
  | .e1 => some .malformedSegment
  | .e2 => some .unsupportedFeature
  | .e3 => some .malformedSegment
  | .e4 => some .malformedSegment
  | .e5 => some .malformedSegment
  | .e6 => some .malformedSegment
  | .e7 => some .unsupportedFeature
  | .e8 => some .malformedSegment
  | .e9 => some .malformedSegment
  | .e10 => some .malformedSegment
  | .e11 => some .malformedSegment
  | .e12 => some .malformedSegment
  | .e13 => some .malformedSegment
  | .e14 => some .malformedSegment
  | .e15 => some .malformedSegment
  | .e16 => some .malformedSegment
  | .e17 => some .malformedSegment
  | .e18 => some .malformedSegment
  | .e19 => some .malformedSegment
  | .e20 => some .unsupportedFeature
  | .e21 => some .unsupportedFeature
  | .e22 => some .unsupportedFeature
  | .e23 => some .malformedSegment
  | .e24 => some .unsupportedFeature
  | .e25 => some .unsupportedFeature
  | .e26 => some .unsupportedFeature
  | .e27 => none
  | .e28 => some .unsupportedFeature
  | .e29 => some .unsupportedFeature
  | .e30 => some .malformedSegment
  | .e31 => some .entropyStructure
  | .e32 => some .entropyStructure
  | .e33 => some .entropyStructure
  | .e34 => some .entropyStructure
  | .e35 => some .entropyStructure
  | .e36 => some .entropyStructure
  | .e37 => some .endOfStream
  | .e38 => some .host
  | .e39 => some .host
  | .e40 => some .resource
  | .e41 => some .entropyStructure

/-- The message column of R198 (log 17); `e27` is reserved and has none. -/
def Err.message : Err → Option String
  | .e1 => some "Invalid JPEG marker"
  | .e2 => some "Restart intervals not supported"
  | .e3 => some "Invalid JPEG segment length"
  | .e4 => some "Unsupported JPEG quantization table precision"
  | .e5 => some "Invalid JPEG quantization table destination"
  | .e6 => some "Invalid JPEG sample precision"
  | .e7 => some "12-bit JPEG not supported"
  | .e8 => some "Invalid JPEG image size"
  | .e9 => some "Invalid JPEG component count"
  | .e10 => some "Duplicate JPEG component id"
  | .e11 => some "Invalid JPEG sampling factor"
  | .e12 => some "Missing JPEG quantization table"
  | .e13 => some "Multiple JPEG frames not supported"
  | .e14 => some "Invalid JPEG Huffman table class or destination"
  | .e15 => some "Invalid JPEG Huffman table"
  | .e16 => some "JPEG scan before frame"
  | .e17 => some "Invalid JPEG scan component count"
  | .e18 => some "Invalid JPEG scan component selector"
  | .e19 => some "Missing JPEG Huffman table"
  | .e20 => some "Extended DCT JPEG not supported"
  | .e21 => some "Progressive JPEG not supported"
  | .e22 => some "Lossless JPEG not supported"
  | .e23 => some "Invalid JPEG scan selection range"
  | .e24 => some "Multiple JPEG scans not supported"
  | .e25 => some "Arithmetic coded JPEG not supported"
  | .e26 => some "Hierarchical JPEG not supported"
  | .e27 => none
  | .e28 => some "Expand reference components not supported"
  | .e29 => some "Define number of lines not supported"
  | .e30 => some "Invalid JFIF header"
  | .e31 => some "JPEG coefficient run exceeds 64"
  | .e32 => some "Huffman symbol not found"
  | .e33 => some "Invalid JPEG coefficient magnitude"
  | .e34 => some "JPEG end-of-block run not supported in baseline"
  | .e35 => some "JPEG coefficient out of range"
  | .e36 => some "JPEG IDCT overflow"
  | .e37 => some "incomplete JPEG"
  | .e38 => some "JPEG image incomplete at end of image"
  | .e39 => some "Cancelled"
  | .e40 => some "JPEG image too large"
  | .e41 => some "Ambiguous JPEG Huffman code"

end Sys2Proof.Machine
end

