-- ==== Sys2Proof/Safety.lean ====
section
/-! DEFINITION. The vocabulary of the claims: the invariant of every state a run from reset can reach (10_state R52, R53), in which no
step faults, and the words the statements are written in (segments and their payloads, bits in stream order, the encoder's stream). -/

namespace Sys2Proof.Machine

/-- `p` is the payload of a whole segment whose length field stands at `D.pos` (40_segments R92). -/
abbrev segmentAt (d : Decoder) (p : List Byte) : Prop :=
  d.pos + (p.length + 2) ≤ d.avail
    ∧ Memory.be16 d.input d.pos = some (p.length + 2)
    ∧ Memory.readBytes d.input (d.pos + 2) p.length = some p

/-- The byte space IN: exactly the bytes supplied, and no more consumed than supplied (20_memory R54, 46_host_interface R195). -/
structure Decoder.InputOk (d : Decoder) : Prop where
  canonical : d.input.wf
  extent : ∀ a, (Memory.read d.input a).isSome = true ↔ a < d.avail
  consumed : d.pos ≤ d.avail

/-- The ranges of the working registers and the component registers (10_state R26 to R30, R35). -/
structure Decoder.RangesOk (d : Decoder) : Prop where
  nbits : d.nbits ≤ 8
  k : d.k ≤ 64
  hwidth : d.hwidth ≤ 16
  hcode : d.hcode.toNat < 2 ^ d.hwidth
  run : d.run ≤ 15
  mag : d.mag ≤ 15
  ampn : d.ampn ≤ d.mag
  amp : d.amp.toNat < 2 ^ d.ampn
  pred : ∀ c ∈ d.comps, inI32 c.pred = true
  scratch : ∀ c ∈ d.comps, ∀ i : Fin 64, inI32 c.scratch[i] = true

/-- The status flags agree with the segment state (10_state R43 to R45, 60_exceptions R199, 46_host_interface R190). -/
structure Decoder.CompletionOk (d : Decoder) : Prop where
  completed : d.completed = d.seg.final
  error : d.error.isSome = decide (d.seg = .error)
  cancel : d.cancel = true → d.seg = .error
  finished : d.seg = .done → d.scanComplete = true

/-- A legal sampling factor (10_state R35, R52). -/
abbrev factorOk (n : Nat) : Prop := n = 1 ∨ n = 2 ∨ n = 4

/-- What an accepted frame header leaves (10_state R34, R35, R40; 40_segments R99, R100). -/
structure Decoder.FrameOk (d : Decoder) : Prop where
  absent : d.framePresent = false → d.comps = [] ∧ d.scanPresent = false
  count : d.framePresent = true → d.comps.length = d.nf ∧ 1 ≤ d.nf ∧ d.nf ≤ 4
  positions : ∀ (j : Nat) (c : Component), d.comps[j]? = some c → c.index = j
  factors : ∀ c ∈ d.comps, factorOk c.h ∧ factorOk c.v ∧ c.h ≤ d.hmax ∧ c.v ≤ d.vmax
  maxima : d.framePresent = true → factorOk d.hmax ∧ factorOk d.vmax
  quant : ∀ c ∈ d.comps, d.qt[c.tq].defined = true
  grid : d.framePresent = true → d.mcux = ceilDiv d.width.toNat (8 * d.hmax) ∧ d.mcuy = ceilDiv d.height.toNat (8 * d.vmax)
    ∧ d.mcuTotal = d.mcux * d.mcuy ∧ 0 < d.width.toNat ∧ 0 < d.height.toNat
  image : d.framePresent = true → ∃ img, d.img = some img ∧ img.width = d.width ∧ img.height = d.height ∧ img.ncomp = d.nf
    ∧ img.pix.wf ∧ ∀ o, (Memory.read img.pix o).isSome = true → o < imageSize d
  mode : d.framePresent = true → d.mode ≠ .none
  sofCode : d.seg = .sof → (sofInstr d.sofCode).isSome = true

/-- What an accepted scan header leaves, and where the cursors stand between two units of work of the scan
(10_state R37 to R39, R53; 40_segments R102, R103). -/
structure Decoder.ScanOk (d : Decoder) : Prop where
  order : d.scanPresent = true → d.order.length = d.ns ∧ d.ns = d.nf ∧ d.order.Nodup ∧ ∀ j ∈ d.order, j < d.nf
  complete : d.scanComplete = true → d.scanPresent = true
  tables : d.seg = .scan → d.framePresent = true ∧ d.scanPresent = true ∧ d.mode = .baseline
    ∧ ∀ c ∈ d.comps, d.dcTables[c.td].defined = true ∧ d.acTables[c.ta].defined = true
  cursors : d.seg = .scan → d.scanComplete = false ∧ d.scanPos < d.ns ∧ d.mcu < d.mcuTotal ∧ d.k ≤ 63 ∧ d.hwidth ≤ 15
  settled : d.seg = .scan → d.sub = .magnitude ∨ d.sub = .amplitude ∧ d.ampn < d.mag
  units : d.seg = .scan → ∀ (q j : Nat) (c : Component), d.order[q]? = some j → d.comps[j]? = some c →
    (q = d.scanPos → c.du < c.h * c.v) ∧ (q ≠ d.scanPos → c.du = 0)

/-- The MCU that holds a pixel (43_mcu_color R144). -/
def mcuOfPixel (d : Decoder) (x y : Nat) : Nat := y / (8 * d.vmax) * d.mcux + x / (8 * d.hmax)

/-- The data unit of a component, inside its MCU, that holds a pixel (43_mcu_color R145). -/
def unitOfPixel (d : Decoder) (c : Component) (x y : Nat) : Nat :=
  y % (8 * d.vmax) / (8 * (d.vmax / c.v)) * c.h + x % (8 * d.hmax) / (8 * (d.hmax / c.h))

/-- The data unit of the component at scan position `q` that holds a pixel comes before the cursors (43_mcu_color R149). -/
def decodedBefore (d : Decoder) (q : Nat) (c : Component) (x y : Nat) : Prop :=
  mcuOfPixel d x y < d.mcu
    ∨ mcuOfPixel d x y = d.mcu ∧ (q < d.scanPos ∨ q = d.scanPos ∧ unitOfPixel d c x y < c.du)

/-- Which cells of IMG hold a value (43_mcu_color R152, R153): during the scan those of every data unit before the cursors,
after it every cell. -/
structure Decoder.CoverageOk (d : Decoder) : Prop where
  scanning : d.seg = .scan → ∀ img, d.img = some img → ∀ (q j : Nat) (c : Component), d.order[q]? = some j → d.comps[j]? = some c →
    ∀ x y, x < d.width.toNat → y < d.height.toNat → decodedBefore d q c x y →
    (Memory.read img.pix (pixelOffset d (x, y) + c.index)).isSome = true
  finished : d.scanComplete = true → ∀ img, d.img = some img → ∀ o, o < imageSize d → (Memory.read img.pix o).isSome = true

/-- The invariant of a run: every clause holds at reset and is kept by every step, and from a state that has it no step faults. -/
structure State.Safe (s : State) : Prop where
  input : s.dec.InputOk
  ranges : s.dec.RangesOk
  completion : s.dec.CompletionOk
  frame : s.dec.FrameOk
  scan : s.dec.ScanOk
  coverage : s.dec.CoverageOk

/-! ### Markers (40_segments R96, R97) -/

/-- The handler that a marker selects (R96). -/
def handlerOf : Instr → Option Seg
  | .sof0 | .sof1 | .sof2 | .sof3 => some .sof
  | .dht => some .dht
  | .sos => some .sos
  | .dqt => some .dqt
  | .app0 => some .app0
  | .com => some .com
  | .dac => some .dac
  | .dnl => some .dnl
  | .dri => some .dri
  | .exp => some .exp
  | _ => none

/-- The coding process a start-of-frame marker selects (R99). -/
def modeOf : Instr → Option Mode
  | .sof0 => some .baseline
  | .sof1 => some .extended
  | .sof2 => some .progressive
  | .sof3 => some .lossless
  | _ => none

/-- The error of a code refused at dispatch, by its code byte (R97); none for the codes of R94 to R96. -/
def refusalOf (c : Byte) : Option Err :=
  if 0xD0 ≤ c ∧ c ≤ 0xD7 then some .e2
  else if c = 0xC5 ∨ c = 0xC6 ∨ c = 0xC7 ∨ c = 0xDE then some .e26
  else if c = 0xC9 ∨ c = 0xCA ∨ c = 0xCB ∨ c = 0xCD ∨ c = 0xCE ∨ c = 0xCF then some .e25
  else if c ∈ ([0xD8, 0xD9, 0xC0, 0xC1, 0xC2, 0xC3, 0xC4, 0xDA, 0xDB, 0xE0, 0xFE, 0xCC, 0xDC, 0xDD, 0xDF] : List Byte) then none
  else some .e1

/-! ### Payloads (30_encoding R73 to R76) -/

/-- A DQT payload of whole entries (R73): destinations with their 64 bytes in zig-zag order. -/
def quantPayload (es : List (Fin 4 × Vector Byte 64)) : List Byte := es.flatMap fun e => BitVec.ofNat 8 e.1.val :: e.2.toList

/-- What a list of DQT entries leaves in the tables (R98): the last entry of each destination, the other tables as before. -/
def quantLoaded (old new : Vector QTable 4) (es : List (Fin 4 × Vector Byte 64)) : Prop :=
  ∀ t : Fin 4,
    (∀ (i : Nat) (q : Vector Byte 64), es[i]? = some (t, q) → (∀ (i' : Nat) (q' : Vector Byte 64), i < i' → es[i']? ≠ some (t, q')) →
      new[t].defined = true ∧ ∀ k : Fin 64, new[t].q[zigzagPos k.val] = q[k])
    ∧ ((∀ q : Vector Byte 64, (t, q) ∉ es) → new[t] = old[t])

/-- A component specification of a frame header (R74). -/
structure FrameSpec where
  id : Byte
  h : Nat
  v : Nat
  tq : Fin 4
  deriving DecidableEq, Repr

/-- An SOF payload (R74) of precision 8. -/
def framePayload (height width : U16) (cs : List FrameSpec) : List Byte :=
  8 :: (be16Bytes height.toNat ++ be16Bytes width.toNat ++ BitVec.ofNat 8 cs.length
    :: cs.flatMap fun c => [c.id, BitVec.ofNat 8 (16 * c.h + c.v), BitVec.ofNat 8 c.tq.val])

/-- A DHT entry (R75): class, destination, counts, symbols. -/
structure HuffSpec where
  cls : Fin 2
  dest : Fin 4
  counts : Vector Byte 16
  symbols : List Byte
  deriving DecidableEq, Repr

/-- A DHT payload of whole entries (R75). -/
def huffPayload (es : List HuffSpec) : List Byte :=
  es.flatMap fun e => BitVec.ofNat 8 (16 * e.cls.val + e.dest.val) :: (e.counts.toList ++ e.symbols)

/-- A DHT entry whose symbols are as many as its counts say and whose code space fits (R75, 41_huffman R114). -/
def HuffSpec.ok (e : HuffSpec) : Prop := e.symbols.length = countTotal e.counts ∧ (huffBuild e.counts e.symbols).isSome = true

/-- The tables of a class. -/
def Decoder.huffTables (d : Decoder) (cls : Fin 2) : Vector HuffTable 4 := if cls = 0 then d.dcTables else d.acTables

/-- What a list of DHT entries leaves in the tables (R101): the last entry of each class and destination, the other tables as before. -/
def huffLoaded (old new : Decoder) (es : List HuffSpec) : Prop :=
  ∀ (c : Fin 2) (t : Fin 4),
    (∀ (i : Nat) (e : HuffSpec), es[i]? = some e → e.cls = c → e.dest = t →
      (∀ (i' : Nat) (e' : HuffSpec), i < i' → es[i']? = some e' → ¬(e'.cls = c ∧ e'.dest = t)) →
      huffBuild e.counts e.symbols = some (new.huffTables c)[t])
    ∧ ((∀ e ∈ es, ¬(e.cls = c ∧ e.dest = t)) → (new.huffTables c)[t] = (old.huffTables c)[t])

/-- A component specification of a scan header (R76). -/
structure ScanSpec where
  id : Byte
  td : Fin 4
  ta : Fin 4
  deriving DecidableEq, Repr

/-- An SOS payload (R76) with the baseline scan range. -/
def scanPayload (cs : List ScanSpec) : List Byte :=
  BitVec.ofNat 8 cs.length :: ((cs.flatMap fun c => [c.id, BitVec.ofNat 8 (16 * c.td.val + c.ta.val)]) ++ [0, 63, 0])

/-! ### Bits in stream order (20_memory R57, 30_encoding R80) -/

/-- The bits of a byte, most significant first. -/
def bitsOf (b : Byte) : List Bool := (List.range 8).map fun i => b.getLsbD (7 - i)

/-- The `w` low bits of a value, most significant first. -/
def bitsOfValue (value w : Nat) : List Bool := (List.range w).map fun i => value.testBit (w - 1 - i)

/-- Bytes with each zero that follows an `0xFF` dropped; `after` says that an `0xFF` came just before. -/
def dropStuffing : Bool → List Byte → List Byte
  | _, [] => []
  | after, b :: rest => if after && b == 0 then dropStuffing false rest else b :: dropStuffing (b == 0xFF) rest

/-- Entropy-coded bytes with each stuffed zero dropped (30_encoding R80). -/
def unstuff (bs : List Byte) : List Byte := dropStuffing false bs

/-- Every `0xFF` is followed by a zero (30_encoding R80). -/
def noMarker (bs : List Byte) : Prop := ∀ i : Nat, bs[i]? = some 0xFF → bs[i + 1]? = some 0x00

/-- `n` bits read one after another (42_entropy R125), if none of them meets a marker, a hold or a hole. -/
def readBits : Nat → Decoder → Option (List Bool × Decoder)
  | 0, d => some ([], d)
  | n + 1, d =>
    match readBit d with
    | .bit b d1 =>
      match readBits n d1 with
      | some (bs, d2) => some (b :: bs, d2)
      | none => none
    | .markerSeen _ => none
    | .hold => none
    | .hole _ => none

/-! ### The encoder's stream (45_encoder) -/

/-- A marker segment: marker, length field, payload (30_encoding R71, R73 to R77). -/
def segmentBytes (code : Byte) (p : List Byte) : List Byte := [0xFF, code] ++ be16Bytes (p.length + 2) ++ p

/-- The tables of component `c` (R172). -/
def tableSelector (c : Nat) : Fin 4 := if c = 0 then 0 else 1

/-- `ROM.STDQ` in zig-zag order, luminance and chrominance (R173's own lists). -/
def quantTable (t : Fin 4) : Vector Byte 64 :=
  if t = 0 then
    (#v[16, 11, 12, 14, 12, 10, 16, 14, 13, 14, 18, 17, 16, 19, 24, 40, 26, 24, 22, 22, 24, 49, 35, 37, 29, 40, 58, 51, 61, 60, 57, 51] :
      Vector Byte 32)
      ++ (#v[56, 55, 64, 72, 92, 78, 64, 68, 87, 69, 55, 56, 80, 109, 81, 87, 95, 98, 103, 104, 103, 62, 77, 113, 121, 112, 100, 120,
        92, 101, 103, 99] : Vector Byte 32)
  else (#v[17, 18, 18, 24, 21, 24, 47, 26, 26, 47, 99, 66, 56, 66] : Vector Byte 14) ++ (Vector.replicate 50 99 : Vector Byte 50)

/-- The DC and AC Huffman tables of a pair as DHT entries (R170, 41_huffman R120 to R123). -/
def huffPair (t : Fin 4) : List HuffSpec :=
  if t = 0 then [⟨0, 0, Rom.countsDcLum, Rom.symbolsDc⟩, ⟨1, 0, Rom.countsAcLum, Rom.symbolsAcLum⟩]
  else [⟨0, 1, Rom.countsDcChr, Rom.symbolsDc⟩, ⟨1, 1, Rom.countsAcChr, Rom.symbolsAcChr⟩]

/-- The header of a stream of `n` components (R167 to R170, R174): SOI, APP0, DQT, SOF0, DHT, SOS. Every component is unsampled; the
tables of pair 1 are written when a component uses them. -/
def streamHeader (width height n : Nat) : List Byte :=
  let tables : List (Fin 4) := if n = 1 then [0] else [0, 1]
  let comps := (List.range n).map fun c => (BitVec.ofNat 8 (c + 1), tableSelector c)
  [0xFF, 0xD8]
    ++ segmentBytes 0xE0 [0x4A, 0x46, 0x49, 0x46, 0x00, 0x01, 0x01, 0x00, 0x00, 0x01, 0x00, 0x01, 0x00, 0x00]
    ++ segmentBytes 0xDB (quantPayload (tables.map fun t => (t, quantTable t)))
    ++ segmentBytes 0xC0 (framePayload (BitVec.ofNat 16 height) (BitVec.ofNat 16 width) (comps.map fun c => ⟨c.1, 1, 1, c.2⟩))
    ++ segmentBytes 0xC4 (huffPayload (tables.flatMap huffPair))
    ++ segmentBytes 0xDA (scanPayload (comps.map fun c => ⟨c.1, c.2, c.2⟩))

/-- Block `i` of the stream, level-shifted. Components alternate, block positions follow in raster order (R176); a sample outside the
image is the nearest one inside (R175). -/
def sourceBlock (src : SrcImage) (i : Nat) : Vector Int 64 :=
  let c := i % src.ncomp
  let bx := i / src.ncomp % ceilDiv src.width 8
  let byy := i / src.ncomp / ceilDiv src.width 8
  Vector.ofFn fun p =>
    let x := min (8 * bx + p.val % 8) (src.width - 1)
    let y := min (8 * byy + p.val / 8) (src.height - 1)
    ((src.pix.getD ((y * src.width + x) * src.ncomp + c) 0).toNat : Int) - 128

/-- The coefficient of block `i` at zig-zag index `k`: transformed, and divided by its component's table (R177). -/
def sourceCoef (cfg : Params) (src : SrcImage) (i : Nat) (k : Fin 64) : Int :=
  F64.round (quantMode cfg.quantRound)
    (F64.div (forwardDct cfg (sourceBlock src i))[zigzagPos k.val] (F64.ofInt ((quantTable (tableSelector (i % src.ncomp)))[k]).toNat))

/-- The bits of a symbol's code, if the table has one (41_huffman R118). -/
def codeBits (t : HuffTable) (v : Nat) : Option (List Bool) := (huffEncode t v).map fun c => bitsOfValue c.1 c.2

/-- The amplitude bits of a value, as many as its bit length (30_encoding R86). -/
def amplitudeCode (v : Int) : List Bool := bitsOfValue (amplitudeBits v (bitlen v)) (bitlen v)

/-- The bits of the AC coefficients of a block from some index to its end (R178). -/
inductive AcCoded (t : HuffTable) : List Int → List Bool → Prop
  /-- Nothing after the last coefficient. -/
  | done : AcCoded t [] []
  /-- A rest of zeros is one EOB. -/
  | eob (zeros : List Int) (code : List Bool) : zeros ≠ [] → (∀ z ∈ zeros, z = 0) → codeBits t 0x00 = some code → AcCoded t zeros code
  /-- Sixteen zeros before a nonzero coefficient are one ZRL. -/
  | zrl (rest : List Int) (code more : List Bool) : (∃ z ∈ rest, z ≠ 0) → codeBits t 0xF0 = some code → AcCoded t rest more →
    AcCoded t (List.replicate 16 0 ++ rest) (code ++ more)
  /-- A nonzero coefficient after at most 15 zeros: its run/size code and its amplitude. -/
  | coef (run : Nat) (z : Int) (rest : List Int) (code more : List Bool) : run ≤ 15 → z ≠ 0 →
    codeBits t (16 * run + bitlen z) = some code → AcCoded t rest more →
    AcCoded t (List.replicate run 0 ++ z :: rest) (code ++ amplitudeCode z ++ more)

/-- The bits of one block: the DC difference's size code and amplitude, then the AC coefficients (R178), by the tables `sel`. -/
def BlockCoded (sel : Fin 4) (diff : Int) (acs : List Int) (bits : List Bool) : Prop :=
  ∃ code rest : List Bool, codeBits (stdDc sel.val) (bitlen diff) = some code ∧ AcCoded (stdAc sel.val) acs rest
    ∧ bits = code ++ amplitudeCode diff ++ rest

/-! ### Data units in order (43_mcu_color R149) -/

/-- The number of data units of the component at a scan position in one MCU. -/
def unitsAt (d : Decoder) (q : Nat) : Nat :=
  match d.order[q]? with
  | none => 0
  | some j =>
    match d.comps[j]? with
    | none => 0
    | some c => c.h * c.v

/-- The number of data units of one MCU. -/
def unitsPerMcu (d : Decoder) : Nat := ((List.range d.ns).map (unitsAt d)).sum

/-- The number of data units of the scan before the one the cursors stand at. -/
def unitIndex (d : Decoder) (du : Nat) : Nat := d.mcu * unitsPerMcu d + ((List.range d.scanPos).map (unitsAt d)).sum + du

end Sys2Proof.Machine
end

