-- ==== Sys2Proof/Certificates/Slice0/Obligations.lean ====
section
/-! DEFINITION. The statements for the provers. A record update states the frame too: every field it does not name is unchanged. -/

open Sys2Proof Sys2Proof.Machine

/-! ### Encoding -/

/-- 30_encoding R71, R83, R84: the words of a few instructions of each format, written out from the tables. -/
def Obligations.WordsDecodeAsTables : Prop :=
  decode .marker [0xFF, 0xD8] = .ok (.soi, [])
    ∧ decode .marker [0xFF, 0xC2, 0x00] = .ok (.sof2, [0x00])
    ∧ decode .marker [0xFF, 0xD5] = .ok (.rst 5, [])
    ∧ decode .marker [0xFF, 0xBF] = .ok (.reserved80_BF 0xBF, [])
    ∧ decode .marker [0xD8, 0xFF] = .error (.notMarkerByte 0xD8)
    ∧ decode .dcSymbol [0x0B] = .ok (.dcSize11, [])
    ∧ decode .dcSymbol [0x0C] = .ok (.dcIllegal0C_0F 0x0C, [])
    ∧ decode .acSymbol [0x00] = .ok (.acEob, [])
    ∧ decode .acSymbol [0xF0] = .ok (.acZrl, [])
    ∧ decode .acSymbol [0xE0] = .ok (.acEobRun14, [])
    ∧ decode .acSymbol [0x3A] = .ok (.acRunSize10 3, [])
    ∧ decode .acSymbol [0x7F] = .ok (.acIllegalSize12_15 7 15, [])

/-- Decoding the bytes of any well-formed instruction, with any bytes after them, gives it back (30_encoding R71, R83, R84). -/
def Obligations.DecodeOfEncode : Prop :=
  ∀ (i : Instr) (rest : List Byte), i.wellFormed = true → decode i.kind (encode i ++ rest) = .ok (i, rest)

/-- Whatever the decoder reads is well-formed, of the kind asked for, and encodes to the bytes read (30_encoding R71, R83, R84). -/
def Obligations.EncodeOfDecode : Prop :=
  ∀ (k : UnitKind) (bs rest : List Byte) (i : Instr), decode k bs = .ok (i, rest) →
    i.wellFormed = true ∧ i.kind = k ∧ bs = encode i ++ rest

/-! ### The step -/

/-- 40_segments R93, 46_host_interface R187: in `MARKER`, with two bytes at `D.pos` that decode to `i`, the step is `exec i`. -/
def Obligations.StepRunsDecodedMarker : Prop :=
  ∀ (s : State) (b0 c : Byte) (i : Instr),
    s.host.running = true → s.dec.cancel = false → s.dec.seg = .marker → s.dec.pos + 2 ≤ s.dec.avail →
    Memory.read s.dec.input s.dec.pos = some b0 → Memory.read s.dec.input (s.dec.pos + 1) = some c →
    decode .marker [b0, c] = .ok (i, []) → step s = exec i s

/-- In a handler's segment state the step is `exec` of the marker that selects the handler (in `SOF`, of the marker whose code
`D.sof_code` holds). That the handler's unit of work (46_host_interface R187) is that marker's instruction is the model's choice
(log 15, DEDUCED): the rules give the handlers (40_segments R98 to R110), not an instruction that runs them. -/
def Obligations.StepRunsHandler : Prop :=
  ∀ (s : State) (i : Instr) (g : Seg),
    s.host.running = true → s.dec.cancel = false → handlerOf i = some g → s.dec.seg = g →
    (g = .sof → s.dec.sofCode = i.codeByte) → step s = exec i s

/-- 42_entropy R128, 41_huffman R117: one bit of a Huffman code. With `code` and `width` the partial code after the bit, the step
runs the decoded symbol's instruction on the state with the partial code cleared and then what the symbol completes (log 1); it
waits for more bits; or it raises E41 on a real code equal to the sentinel, E32 on the sentinel and on 16 bits without a code.
The longer partial code standing after E41 and E32 is the pseudocode's order (log 22). -/
def Obligations.StepRunsDecodedSymbol : Prop :=
  ∀ (s : State) (j : Nat) (c : Component) (b : Bool) (d : Decoder) (t : HuffTable) (code : U16) (width : Nat),
    s.host.running = true → s.dec.cancel = false → s.dec.seg = .scan → s.dec.sub = .magnitude →
    s.dec.active = some (j, c) → readBit s.dec = .bit b d →
    t = (if s.dec.k = 0 then s.dec.dcTables[c.td] else s.dec.acTables[c.ta]) →
    code = s.dec.hcode * 2 + (if b then 1 else 0) → width = s.dec.hwidth + 1 →
    (∀ v, lookupCode t code width = some v → t.sentinel ≠ some (code, width) →
      step s = andThen (exec (decodeSymbol s.dec.k v) (s.withDec { d with hcode := 0, hwidth := 0 })) settle)
    ∧ (lookupCode t code width = none → t.sentinel ≠ some (code, width) → width ≠ 16 →
      step s = .next (s.withDec { d with hcode := code, hwidth := width }))
    ∧ (t.sentinel = some (code, width) → (lookupCode t code width).isSome = true →
      step s = .next (errorEntry .e41 (s.withDec { d with hcode := code, hwidth := width })))
    ∧ (lookupCode t code width = none → (t.sentinel = some (code, width) ∨ width = 16) →
      step s = .next (errorEntry .e32 (s.withDec { d with hcode := code, hwidth := width })))

/-- 42_entropy R136, R137: one amplitude bit. It is appended to `D.amp`; when it is the last one the amplitude is resolved in the
same step (log 1). -/
def Obligations.StepReadsAmplitudeBit : Prop :=
  ∀ (s : State) (j : Nat) (c : Component) (b : Bool) (d : Decoder),
    s.host.running = true → s.dec.cancel = false → s.dec.seg = .scan → s.dec.sub = .amplitude → s.dec.ampn < s.dec.mag →
    s.dec.active = some (j, c) → readBit s.dec = .bit b d →
    (s.dec.ampn + 1 < s.dec.mag →
      step s = .next (s.withDec { d with amp := s.dec.amp * 2 + (if b then 1 else 0), ampn := s.dec.ampn + 1 }))
    ∧ (s.dec.ampn + 1 = s.dec.mag →
      step s = resolveAmplitude (s.withDec { d with amp := s.dec.amp * 2 + (if b then 1 else 0), ampn := s.dec.ampn + 1 }) j c)

/-- 42_entropy R126: a marker met where a bit of entropy-coded data is needed takes the sequencer back to `MARKER`; nothing is
consumed and nothing else is written. -/
def Obligations.MarkerEndsEntropyData : Prop :=
  ∀ (s : State) (j : Nat) (c : Component) (b : Byte),
    s.host.running = true → s.dec.cancel = false → s.dec.seg = .scan →
    (s.dec.sub = .magnitude ∨ s.dec.sub = .amplitude ∧ s.dec.ampn < s.dec.mag) →
    s.dec.active = some (j, c) → s.dec.nbits = 0 → s.dec.pos + 2 ≤ s.dec.avail →
    Memory.read s.dec.input s.dec.pos = some 0xFF → Memory.read s.dec.input (s.dec.pos + 1) = some b → b ≠ 0 →
    step s = .next { s with dec := { s.dec with seg := .marker } }

/-- 00_scope R13, R92, R93, R125: a unit of work whose bytes are not all supplied leaves the decoder unchanged and the Feed returns
`NeedMore(D.pos)`; with end of stream it raises E37. (That the return is one step of its own is the model's choice, log 14.) -/
def Obligations.HoldLeavesDecoderUnchanged : Prop :=
  ∀ (s : State),
    s.host.running = true → s.dec.cancel = false →
    ((s.dec.seg = .marker ∧ s.dec.avail < s.dec.pos + 2)
      ∨ (∃ i, handlerOf i = some s.dec.seg ∧ (s.dec.seg = .sof → s.dec.sofCode = i.codeByte)
          ∧ (s.dec.avail < s.dec.pos + 2
            ∨ ∃ len, Memory.be16 s.dec.input s.dec.pos = some len ∧ 2 ≤ len ∧ s.dec.avail < s.dec.pos + len))
      ∨ (s.dec.seg = .scan ∧ s.dec.active.isSome = true
          ∧ (s.dec.sub = .magnitude ∨ s.dec.sub = .amplitude ∧ s.dec.ampn < s.dec.mag) ∧ s.dec.nbits = 0
          ∧ (s.dec.avail ≤ s.dec.pos
            ∨ Memory.read s.dec.input s.dec.pos = some 0xFF ∧ s.dec.avail = s.dec.pos + 1))) →
    (s.dec.eos = false →
      step s = .next { s with host := { s.host with running := false, replies := s.host.replies ++ [.feed (.needMore s.dec.pos)] } })
    ∧ (s.dec.eos = true → step s = .next (errorEntry .e37 s))

/-- 30_encoding R72: a marker whose first byte is not `0xFF` raises E1, and consumes nothing. -/
def Obligations.FirstByteMustBeFF : Prop :=
  ∀ (s : State) (b0 c : Byte),
    s.host.running = true → s.dec.cancel = false → s.dec.seg = .marker → s.dec.pos + 2 ≤ s.dec.avail →
    Memory.read s.dec.input s.dec.pos = some b0 → Memory.read s.dec.input (s.dec.pos + 1) = some c → b0 ≠ 0xFF →
    step s = .next (errorEntry .e1 s)

/-! ### Markers -/

/-- 40_segments R94, R96: SOI consumes its two bytes and changes nothing else; a handler-selecting marker consumes its two bytes and
selects its handler, a start-of-frame marker latching its code too. -/
def Obligations.SoiAndSelectingMarkers : Prop :=
  (∀ s : State, s.dec.seg = .marker → exec .soi s = .next { s with dec := { s.dec with pos := s.dec.pos + 2 } })
    ∧ (∀ (s : State) (i : Instr) (g : Seg), handlerOf i = some g → s.dec.seg = .marker →
    exec i s = .next { s with dec := { s.dec with
      pos := s.dec.pos + 2, seg := g, sofCode := if g = .sof then i.codeByte else s.dec.sofCode } })

/-- 40_segments R95, 46_host_interface R190: after a complete scan EOI copies the density into the image, ends the decoding and
delivers the image once; without one it raises E38.
The list of events is the model's rendering of the signal (log 12). -/
def Obligations.EoiDeliversImage : Prop :=
  ∀ s : State,
    (∀ img, s.dec.scanComplete = true → s.dec.img = some img →
      exec .eoi s = .next { s with
        dec := { s.dec with pos := s.dec.pos + 2, seg := .done, completed := true, img := some { img with density := s.dec.density } }
        host := { s.host with events :=
          if s.dec.completed = true then s.host.events else s.host.events ++ [.image { img with density := s.dec.density }] } })
    ∧ (s.dec.scanComplete = false →
      exec .eoi s = .next (errorEntry .e38 { s with dec := { s.dec with pos := s.dec.pos + 2 } }))

/-- 40_segments R97: every other marker is consumed and raises the error of its code. -/
def Obligations.RefusedMarkersRaise : Prop :=
  ∀ (s : State) (i : Instr) (e : Err), i.wellFormed = true → i.kind = .marker → refusalOf i.codeByte = some e →
    exec i s = .next (errorEntry e { s with dec := { s.dec with pos := s.dec.pos + 2 } })

/-! ### Segment handlers -/

/-- 40_segments R92: in every handler a segment length below 2 raises E3, before anything is read or written. -/
def Obligations.ShortLengthRaisesE3 : Prop :=
  ∀ (s : State) (i : Instr) (len : Nat),
    handlerOf i = some s.dec.seg → s.dec.pos + 2 ≤ s.dec.avail → Memory.be16 s.dec.input s.dec.pos = some len → len < 2 →
    exec i s = .next (errorEntry .e3 s)

/-- 40_segments R98: a DQT segment of whole, legal entries loads each table in natural order, a later entry of the same destination
replacing an earlier one. -/
def Obligations.DqtLoadsTables : Prop :=
  ∀ (s : State) (es : List (Fin 4 × Vector Byte 64)),
    s.dec.seg = .dqt → es ≠ [] → segmentAt s.dec (quantPayload es) →
    ∃ qt, quantLoaded s.dec.qt qt es
      ∧ exec .dqt s = .next { s with dec := { s.dec with
          qt := qt, pos := s.dec.pos + ((quantPayload es).length + 2), seg := .marker } }

/-- 40_segments R98, R113: the error of the first bad DQT entry, with the entries before it written. -/
def Obligations.DqtRaisesOnBadEntry : Prop :=
  ∀ (s : State) (es : List (Fin 4 × Vector Byte 64)) (r : List Byte) (e : Err),
    s.dec.seg = .dqt → segmentAt s.dec (quantPayload es ++ r) →
    ((es = [] ∧ r = [] ∧ e = .e3)
      ∨ ∃ b rest, r = b :: rest
          ∧ ((hiNibble b ≠ 0 ∧ e = .e4)
            ∨ (hiNibble b = 0 ∧ 3 < (loNibble b).toNat ∧ e = .e5)
            ∨ (hiNibble b = 0 ∧ (loNibble b).toNat ≤ 3 ∧ rest.length < 64 ∧ e = .e3))) →
    ∃ qt, quantLoaded s.dec.qt qt es ∧ exec .dqt s = .next (errorEntry e { s with dec := { s.dec with qt := qt } })

/-- 40_segments R99, R100: an accepted frame header writes the frame and component registers, the MCU grid and a fresh image.
(The values of `td`, `ta`, `scratch` and of the image's density, which the rules leave unwritten, are not stated.) -/
def Obligations.FrameHeaderCommits : Prop :=
  ∀ (s : State) (i : Instr) (mode : Mode) (height width : U16) (cs : List FrameSpec),
    modeOf i = some mode → s.dec.seg = .sof → segmentAt s.dec (framePayload height width cs) →
    s.dec.framePresent = false → height ≠ 0 → width ≠ 0 → 1 ≤ cs.length → cs.length ≤ 4 → (cs.map FrameSpec.id).Nodup →
    (∀ c ∈ cs, factorOk c.h ∧ factorOk c.v ∧ s.dec.qt[c.tq].defined = true) →
    width.toNat * height.toNat * cs.length ≤ s.cfg.maxImageBytes →
    ∃ (comps : List Component) (hmax vmax mcux mcuy : Nat) (density : Density),
      exec i s = .next { s with dec := { s.dec with
          mode := mode, precision := 8, height := height, width := width, nf := cs.length, comps := comps
          hmax := hmax, vmax := vmax, mcux := mcux, mcuy := mcuy, mcuTotal := mcux * mcuy
          img := some { width := width, height := height, ncomp := cs.length, density := density, pix := [] }
          framePresent := true, pos := s.dec.pos + ((framePayload height width cs).length + 2), seg := .marker } }
      ∧ comps.length = cs.length
      ∧ (∀ (j : Nat) (c : FrameSpec), cs[j]? = some c → ∃ k, comps[j]? = some k ∧ k.id = c.id ∧ k.index = j ∧ k.h = c.h ∧ k.v = c.v
          ∧ k.tq = c.tq ∧ k.pred = 0 ∧ k.du = 0)
      ∧ (∀ c ∈ cs, c.h ≤ hmax ∧ c.v ≤ vmax) ∧ (∃ c ∈ cs, c.h = hmax) ∧ (∃ c ∈ cs, c.v = vmax)
      ∧ width.toNat ≤ 8 * hmax * mcux ∧ (∀ n, width.toNat ≤ 8 * hmax * n → mcux ≤ n)
      ∧ height.toNat ≤ 8 * vmax * mcuy ∧ (∀ n, height.toNat ≤ 8 * vmax * n → mcuy ≤ n)

/-- 40_segments R99: the frame header's checks, in order; each raises its own error and writes nothing. Component `j` of the payload
has its identifier at `6 + 3j`, its factors at `7 + 3j`, its table selector at `8 + 3j` (30_encoding R74). -/
def Obligations.FrameHeaderRaises : Prop :=
  ∀ (s : State) (i : Instr) (mode : Mode) (p : List Byte) (e : Err) (nf : Nat),
    modeOf i = some mode → s.dec.seg = .sof → segmentAt s.dec p → nf = (byteAt p 5).toNat →
    let sizeOk := byteAt p 0 = 8 ∧ fieldU16 p 1 ≠ 0 ∧ fieldU16 p 3 ≠ 0
    let dup := fun j : Nat => ∃ j' < j, byteAt p (6 + 3 * j') = byteAt p (6 + 3 * j)
    let factors := fun j : Nat => factorOk (hiNibble (byteAt p (7 + 3 * j))).toNat ∧ factorOk (loNibble (byteAt p (7 + 3 * j))).toNat
    let table := fun j : Nat => ∃ t : Fin 4, (byteAt p (8 + 3 * j)).toNat = t.val ∧ s.dec.qt[t].defined = true
    let long := s.dec.framePresent = false ∧ 6 ≤ p.length
    let counted := long ∧ sizeOk ∧ 1 ≤ nf ∧ nf ≤ 4
    (s.dec.framePresent = true ∧ e = .e13
      ∨ s.dec.framePresent = false ∧ p.length < 6 ∧ e = .e3
      ∨ long ∧ byteAt p 0 = 12 ∧ e = .e7
      ∨ long ∧ byteAt p 0 ≠ 12 ∧ byteAt p 0 ≠ 8 ∧ e = .e6
      ∨ long ∧ byteAt p 0 = 8 ∧ (fieldU16 p 1 = 0 ∨ fieldU16 p 3 = 0) ∧ e = .e8
      ∨ long ∧ sizeOk ∧ (nf < 1 ∨ 4 < nf) ∧ e = .e9
      ∨ counted ∧ p.length ≠ 6 + 3 * nf ∧ e = .e3
      ∨ counted ∧ p.length = 6 + 3 * nf ∧ (∃ j < nf, (∀ j' < j, ¬dup j' ∧ factors j' ∧ table j')
          ∧ (dup j ∧ e = .e10 ∨ ¬dup j ∧ ¬factors j ∧ e = .e11 ∨ ¬dup j ∧ factors j ∧ ¬table j ∧ e = .e12))
      ∨ counted ∧ p.length = 6 + 3 * nf ∧ (∀ j < nf, ¬dup j ∧ factors j ∧ table j)
          ∧ s.cfg.maxImageBytes < (fieldU16 p 3).toNat * (fieldU16 p 1).toNat * nf ∧ e = .e40) →
    exec i s = .next (errorEntry e s)

/-- 40_segments R101: a DHT segment of whole, legal entries builds each table (41_huffman R114), a later entry of the same class and
destination replacing an earlier one. -/
def Obligations.DhtBuildsTables : Prop :=
  ∀ (s : State) (es : List HuffSpec),
    s.dec.seg = .dht → es ≠ [] → (∀ e ∈ es, e.ok) → segmentAt s.dec (huffPayload es) →
    ∃ dc ac : Vector HuffTable 4,
      huffLoaded s.dec { s.dec with dcTables := dc, acTables := ac } es
      ∧ exec .dht s = .next { s with dec := { s.dec with
          dcTables := dc, acTables := ac, pos := s.dec.pos + ((huffPayload es).length + 2), seg := .marker } }

/-- 40_segments R101, R113: the error of the first bad DHT entry, with the entries before it written. -/
def Obligations.DhtRaisesOnBadEntry : Prop :=
  ∀ (s : State) (es : List HuffSpec) (r : List Byte) (e : Err),
    s.dec.seg = .dht → (∀ e ∈ es, e.ok) → segmentAt s.dec (huffPayload es ++ r) →
    ((es = [] ∧ r = [] ∧ e = .e3)
      ∨ ∃ b rest, r = b :: rest
          ∧ ((rest.length < 16 ∧ e = .e3)
            ∨ (16 ≤ rest.length ∧ (1 < (hiNibble b).toNat ∨ 3 < (loNibble b).toNat) ∧ e = .e14)
            ∨ (∃ counts : Vector Byte 16, (hiNibble b).toNat ≤ 1 ∧ (loNibble b).toNat ≤ 3 ∧ rest.take 16 = counts.toList
              ∧ ((rest.length < 16 + countTotal counts ∧ e = .e3)
                ∨ (16 + countTotal counts ≤ rest.length
                  ∧ huffBuild counts ((rest.drop 16).take (countTotal counts)) = none ∧ e = .e15))))) →
    ∃ dc ac : Vector HuffTable 4,
      huffLoaded s.dec { s.dec with dcTables := dc, acTables := ac } es
      ∧ exec .dht s = .next (errorEntry e { s with dec := { s.dec with dcTables := dc, acTables := ac } })

/-- 40_segments R102, R103: an accepted scan header assigns the tables and the decode order, resets every predictor, counter and
entropy working register, and enters `SCAN`. The frame's identifiers are distinct (R99). -/
def Obligations.ScanHeaderCommits : Prop :=
  ∀ (s : State) (cs : List ScanSpec) (order : List Nat),
    s.dec.seg = .sos → segmentAt s.dec (scanPayload cs) →
    s.dec.framePresent = true → s.dec.scanPresent = false → s.dec.mode = .baseline →
    s.dec.comps.length = s.dec.nf → cs.length = s.dec.nf → s.dec.nf < 256 →
    (s.dec.comps.map Component.id).Nodup → order.length = cs.length → order.Nodup →
    (∀ (j i : Nat) (c : ScanSpec), cs[j]? = some c → order[j]? = some i → ∃ k, s.dec.comps[i]? = some k ∧ k.id = c.id) →
    (∀ c ∈ cs, s.dec.dcTables[c.td].defined = true ∧ s.dec.acTables[c.ta].defined = true) →
    ∃ comps : List Component,
      exec .sos s = .next { s with dec := { s.dec with
          comps := comps, ns := cs.length, order := order, ss := 0, se := 63, ah := 0, al := 0, scanPos := 0, mcu := 0, k := 0
          sub := .magnitude, hcode := 0, hwidth := 0, run := 0, mag := 0, amp := 0, ampn := 0, nbits := 0, scanPresent := true
          pos := s.dec.pos + ((scanPayload cs).length + 2), seg := .scan } }
      ∧ comps.length = s.dec.comps.length
      ∧ ∀ (j i : Nat) (c : ScanSpec) (k : Component), cs[j]? = some c → order[j]? = some i → s.dec.comps[i]? = some k →
          comps[i]? = some { k with pred := 0, du := 0, td := c.td, ta := c.ta }

/-- 40_segments R102: the scan header's checks, in order; each raises its own error and writes nothing. -/
def Obligations.ScanHeaderRaises : Prop :=
  ∀ (s : State) (p : List Byte) (e : Err) (ns : Nat),
    s.dec.seg = .sos → segmentAt s.dec p → ns = (byteAt p 0).toNat → (s.dec.comps.map Component.id).Nodup →
    let known := fun j : Nat => ∃ k ∈ s.dec.comps, k.id = byteAt p (1 + 2 * j)
    let again := fun j : Nat => ∃ j' < j, byteAt p (1 + 2 * j') = byteAt p (1 + 2 * j)
    let tables := fun j : Nat => ∃ td ta : Fin 4, (hiNibble (byteAt p (2 + 2 * j))).toNat = td.val
      ∧ (loNibble (byteAt p (2 + 2 * j))).toNat = ta.val ∧ s.dec.dcTables[td].defined = true ∧ s.dec.acTables[ta].defined = true
    let open_ := s.dec.framePresent = true ∧ s.dec.scanPresent = false
    let sized := open_ ∧ s.dec.mode = .baseline ∧ p ≠ [] ∧ ns = s.dec.nf ∧ p.length = 4 + 2 * ns
    (s.dec.framePresent = false ∧ e = .e16
      ∨ s.dec.framePresent = true ∧ s.dec.scanPresent = true ∧ e = .e24
      ∨ open_ ∧ s.dec.mode = .extended ∧ e = .e20
      ∨ open_ ∧ s.dec.mode = .progressive ∧ e = .e21
      ∨ open_ ∧ s.dec.mode = .lossless ∧ e = .e22
      ∨ open_ ∧ s.dec.mode = .baseline ∧ p = [] ∧ e = .e3
      ∨ open_ ∧ s.dec.mode = .baseline ∧ p ≠ [] ∧ ns ≠ s.dec.nf ∧ e = .e17
      ∨ open_ ∧ s.dec.mode = .baseline ∧ p ≠ [] ∧ ns = s.dec.nf ∧ p.length ≠ 4 + 2 * ns ∧ e = .e3
      ∨ sized ∧ (∃ j < ns, (∀ j' < j, known j' ∧ ¬again j' ∧ tables j')
          ∧ ((¬known j ∨ again j) ∧ e = .e18 ∨ known j ∧ ¬again j ∧ ¬tables j ∧ e = .e19))
      ∨ sized ∧ (∀ j < ns, known j ∧ ¬again j ∧ tables j) ∧ p.drop (1 + 2 * ns) ≠ [0, 63, 0] ∧ e = .e23) →
    exec .sos s = .next (errorEntry e s)

/-- 40_segments R104, R105, R106: a JFIF APP0 segment gives the version and the pixel density, or E30 when it is shorter than its header
or its thumbnail; any other APP0 segment is consumed without effect; a COM segment's payload, the empty one too, becomes the comment. -/
def Obligations.App0AndComSegments : Prop :=
  ∀ (s : State) (p : List Byte), segmentAt s.dec p →
    (s.dec.seg = .app0 → p.take 5 = [0x4A, 0x46, 0x49, 0x46, 0x00] → 14 ≤ p.length →
      14 + 3 * (byteAt p 12).toNat * (byteAt p 13).toNat ≤ p.length →
      ∃ x y : U16, x.toNat = (byteAt p 8).toNat * 256 + (byteAt p 9).toNat ∧ y.toNat = (byteAt p 10).toNat * 256 + (byteAt p 11).toNat
        ∧ exec .app0 s = .next { s with dec := { s.dec with
            jfifVersion := some (byteAt p 5, byteAt p 6), density := ⟨byteAt p 7, x, y⟩
            pos := s.dec.pos + (p.length + 2), seg := .marker } })
    ∧ (s.dec.seg = .app0 → p.take 5 = [0x4A, 0x46, 0x49, 0x46, 0x00] →
      (p.length < 14 ∨ p.length < 14 + 3 * (byteAt p 12).toNat * (byteAt p 13).toNat) →
      exec .app0 s = .next (errorEntry .e30 s))
    ∧ (s.dec.seg = .app0 → p.take 5 ≠ [0x4A, 0x46, 0x49, 0x46, 0x00] →
      exec .app0 s = .next { s with dec := { s.dec with pos := s.dec.pos + (p.length + 2), seg := .marker } })
    ∧ (s.dec.seg = .com →
      exec .com s = .next { s with dec := { s.dec with comment := some p, pos := s.dec.pos + (p.length + 2), seg := .marker } })

/-- 40_segments R107 to R110: DAC, DNL, DRI and EXP wait for the whole segment and then raise E25, E29, E2 and E28. -/
def Obligations.RefusedSegmentsRaise : Prop :=
  ∀ (s : State) (p : List Byte), segmentAt s.dec p →
    (s.dec.seg = .dac → exec .dac s = .next (errorEntry .e25 s))
    ∧ (s.dec.seg = .dnl → exec .dnl s = .next (errorEntry .e29 s))
    ∧ (s.dec.seg = .dri → exec .dri s = .next (errorEntry .e2 s))
    ∧ (s.dec.seg = .exp → exec .exp s = .next (errorEntry .e28 s))

/-! ### Symbols, amplitudes, coefficients -/

/-- 42_entropy R129, R130: a DC size symbol `s` in 0..11 starts an amplitude of `s` bits with no run; any larger one raises E33. -/
def Obligations.DcSymbolsSetMagnitude : Prop :=
  ∀ (s : State) (i : Instr), i.wellFormed = true → i.kind = .dcSymbol →
    (i.codeByte.toNat ≤ 11 →
      exec i s = .next { s with dec := { s.dec with run := 0, mag := i.codeByte.toNat, amp := 0, ampn := 0, sub := .amplitude } })
    ∧ (11 < i.codeByte.toNat → exec i s = .next (errorEntry .e33 s))

/-- 42_entropy R131 to R135: the AC symbols, by high nibble `R` and low nibble `S` of the symbol value. -/
def Obligations.AcSymbolsSetRunAndMagnitude : Prop :=
  ∀ (s : State) (i : Instr) (r sz : Nat), i.wellFormed = true → i.kind = .acSymbol →
    r = i.codeByte.toNat / 16 → sz = i.codeByte.toNat % 16 →
    (1 ≤ sz → sz ≤ 10 →
      exec i s = .next { s with dec := { s.dec with run := r, mag := sz, amp := 0, ampn := 0, sub := .amplitude } })
    ∧ (sz = 0 → r = 0 → exec i s = .next { s with dec := { s.dec with sub := .endOfBlockCount } })
    ∧ (sz = 0 → r = 15 →
      exec i s = .next { s with dec := { s.dec with run := 15, mag := 0, amp := 0, ampn := 0, sub := .amplitude } })
    ∧ (sz = 0 → 1 ≤ r → r ≤ 14 → exec i s = .next (errorEntry .e34 s))
    ∧ (11 ≤ sz → exec i s = .next (errorEntry .e33 s))

/-- 42_entropy R125, 20_memory R57: the bits of a data byte come most significant first, and the byte is consumed with its first bit;
the pair `FF 00` is the one data byte `FF`. -/
def Obligations.BitsComeMostSignificantFirst : Prop :=
  ∀ (d : Decoder) (v : Byte) (n len : Nat),
    d.nbits = 0 → 1 ≤ n → n ≤ 8 → Memory.read d.input d.pos = some v → d.pos + len ≤ d.avail →
    (v ≠ 0xFF ∧ len = 1 ∨ v = 0xFF ∧ len = 2 ∧ Memory.read d.input (d.pos + 1) = some 0x00) →
    readBits n d = some ((bitsOf v).take n, { d with acc := v, nbits := 8 - n, pos := d.pos + len })

/-- 30_encoding R85, R86: the amplitude bits of a value fit its magnitude and decode to the value, and every amplitude of magnitude `m`
decodes to a value of that bit length whose amplitude bits it is. -/
def Obligations.AmplitudesInvert : Prop :=
  (∀ v : Int, amplitudeBits v (bitlen v) < 2 ^ bitlen v ∧ amplitudeValue (bitlen v) (amplitudeBits v (bitlen v)) = v)
    ∧ (∀ m a : Nat, 1 ≤ m → a < 2 ^ m →
      bitlen (amplitudeValue m a) = m ∧ amplitudeBits (amplitudeValue m a) m = a)

/-- 42_entropy R137, R139, 44_transform R157: the DC coefficient. The difference is added to the predictor, the sum is the coefficient,
scaled by the first table entry; E35 when the predictor, or the product, leaves the signed 32-bit range.
The same unit of work (log 1); the writes standing after E35 are the pseudocode's order (log 22). -/
def Obligations.DcCoefficientIsPredicted : Prop :=
  ∀ (s : State) (j : Nat) (c : Component) (p x : Int),
    s.dec.seg = .scan → s.dec.sub = .amplitude → s.dec.active = some (j, c) → s.dec.ampn = s.dec.mag → s.dec.k = 0 → s.dec.run = 0 →
    p = c.pred + amplitudeValue s.dec.mag s.dec.amp.toNat → x = p * ((s.dec.qt[c.tq].q[0]).toNat : Int) →
    (inI32 p = true → inI32 x = true →
      settle s = .next { s with dec := { s.dec with
        sub := .magnitude, k := 1, comps := s.dec.comps.set j { c with pred := p, scratch := c.scratch.set 0 x } } })
    ∧ (inI32 p = false → settle s = .next (errorEntry .e35 s))
    ∧ (inI32 p = true → inI32 x = false →
      settle s = .next (errorEntry .e35 { s with dec := { s.dec with
        sub := .magnitude, comps := s.dec.comps.set j { c with pred := p } } }))

/-- 42_entropy R139, 44_transform R157: an AC coefficient after its run of zeros. With room to spare the run and the scaled value are
placed; at the 64th coefficient the data unit completes; past it the step raises E31.
The same unit of work (log 1). That the write of `D.sub` stands after E31 is the model's choice, from the pseudocode's order (log 22,
DEDUCED; 60_exceptions R199 names only DQT and DHT as writing before a raise). -/
def Obligations.AcCoefficientIsPlaced : Prop :=
  ∀ (s : State) (j : Nat) (c : Component) (v : Int),
    s.dec.seg = .scan → s.dec.sub = .amplitude → s.dec.active = some (j, c) → s.dec.ampn = s.dec.mag → 1 ≤ s.dec.k →
    s.dec.amp.toNat < 2 ^ s.dec.mag → s.dec.mag ≤ 10 → v = amplitudeValue s.dec.mag s.dec.amp.toNat →
    (63 < s.dec.k + s.dec.run → settle s = .next (errorEntry .e31 { s with dec := { s.dec with sub := .magnitude } }))
    ∧ (s.dec.k + s.dec.run ≤ 63 → ∃ scratch : Vector Int 64,
      (∀ n : Fin 64, scratch[zigzagPos n.val] =
        if s.dec.k ≤ n.val ∧ n.val < s.dec.k + s.dec.run then 0
        else if n.val = s.dec.k + s.dec.run then v * ((s.dec.qt[c.tq].q[zigzagPos n.val]).toNat : Int)
        else c.scratch[zigzagPos n.val])
      ∧ (s.dec.k + s.dec.run < 63 →
        settle s = .next { s with dec := { s.dec with
          sub := .magnitude, k := s.dec.k + s.dec.run + 1, comps := s.dec.comps.set j { c with scratch := scratch } } })
      ∧ (s.dec.k + s.dec.run = 63 →
        settle s = dataUnitComplete { s with dec := { s.dec with
          sub := .magnitude, k := 64, comps := s.dec.comps.set j { c with scratch := scratch } } } j { c with scratch := scratch }))

/-- 42_entropy R138: after EOB the coefficients from `D.k` on are zero and the data unit completes.
The same unit of work (log 1). -/
def Obligations.EobZeroesTheRest : Prop :=
  ∀ (s : State) (j : Nat) (c : Component),
    s.dec.seg = .scan → s.dec.sub = .endOfBlockCount → s.dec.active = some (j, c) → s.dec.k ≤ 63 →
    ∃ scratch : Vector Int 64,
      (∀ n : Fin 64, scratch[zigzagPos n.val] = if s.dec.k ≤ n.val then 0 else c.scratch[zigzagPos n.val])
      ∧ settle s = dataUnitComplete { s with dec := { s.dec with
          sub := .magnitude, k := 64, comps := s.dec.comps.set j { c with scratch := scratch } } } j { c with scratch := scratch }

/-! ### Completion of a data unit -/

/-- 43_mcu_color R143 to R146, 44_transform R159: completion of a data unit, placement without conversion. Completion runs at `D.k = 64`
(`AcCoefficientIsPlaced`, `EobZeroesTheRest`), one past the range of the invariant, so the premise is the invariant with `D.k` at 0.
A block without samples raises E36 in every state, and completion itself writes nothing then (what the unit of work wrote before stands,
log 22). With `mx`, `my` the MCU's place and `dx`, `dy` the data unit's, the sample
at row `yy`, column `xx` is written to its block of `sx * sy` pixels, clipped at the image's edges, at the component's byte; every
other cell of IMG reads as before. Nothing else of the state changes but the cursors (`advanceCursors`). -/
def Obligations.PlacementWritesItsPixels : Prop :=
  (∀ (s : State) (j : Nat) (c : Component), idctSamples s.cfg c.scratch = none → dataUnitComplete s j c = .next (errorEntry .e36 s))
  ∧ ∀ (s : State) (j : Nat) (c : Component) (img : Image) (samples : Vector Byte 64),
    (s.withDec { s.dec with k := 0 }).Safe → s.dec.seg = .scan → s.dec.active = some (j, c) →
    s.dec.img = some img → idctSamples s.cfg c.scratch = some samples → ¬(s.dec.nf = 3 ∧ s.dec.scanPos + 1 = s.dec.ns) →
    let sx := s.dec.hmax / c.h
    let sy := s.dec.vmax / c.v
    let bx := fun xx : Nat => s.dec.mcu % s.dec.mcux * 8 * s.dec.hmax + (c.du % c.h * 8 + xx) * sx
    let by_ := fun yy : Nat => s.dec.mcu / s.dec.mcux * 8 * s.dec.vmax + (c.du / c.h * 8 + yy) * sy
    let cell := fun x y : Nat => (y * s.dec.width.toNat + x) * s.dec.nf + c.index
    ∃ pix : Memory,
      dataUnitComplete s j c = .next (s.withDec (advanceCursors { s.dec with img := some { img with pix := pix } } j c))
      ∧ (∀ yy xx i' j' : Nat, yy < 8 → xx < 8 → i' < sx → j' < sy →
          bx xx + i' < s.dec.width.toNat → by_ yy + j' < s.dec.height.toNat →
          Memory.read pix (cell (bx xx + i') (by_ yy + j')) = samples.toList[8 * yy + xx]?)
      ∧ (∀ o : Nat, (∀ yy xx i' j' : Nat, yy < 8 → xx < 8 → i' < sx → j' < sy →
          bx xx + i' < s.dec.width.toNat → by_ yy + j' < s.dec.height.toNat → o ≠ cell (bx xx + i') (by_ yy + j')) →
          Memory.read pix o = Memory.read img.pix o)

/-- 43_mcu_color R146 to R148: placement by the last scan component of a three-component frame. Each pixel written is converted at once:
its three cells become the conversion of the sample and of the two cells that stood there. The premise is the invariant with `D.k` at 0,
as completion runs at `D.k = 64`. -/
def Obligations.PlacementConvertsItsPixels : Prop :=
  ∀ (s : State) (j : Nat) (c : Component) (img : Image) (samples : Vector Byte 64),
    (s.withDec { s.dec with k := 0 }).Safe → s.dec.seg = .scan → s.dec.active = some (j, c) →
    s.dec.img = some img → idctSamples s.cfg c.scratch = some samples → s.dec.nf = 3 → s.dec.scanPos + 1 = s.dec.ns →
    let sx := s.dec.hmax / c.h
    let sy := s.dec.vmax / c.v
    let bx := fun xx : Nat => s.dec.mcu % s.dec.mcux * 8 * s.dec.hmax + (c.du % c.h * 8 + xx) * sx
    let by_ := fun yy : Nat => s.dec.mcu / s.dec.mcux * 8 * s.dec.vmax + (c.du / c.h * 8 + yy) * sy
    let pixel := fun x y : Nat => (y * s.dec.width.toNat + x) * 3
    ∃ pix : Memory,
      dataUnitComplete s j c = .next (s.withDec (advanceCursors { s.dec with img := some { img with pix := pix } } j c))
      ∧ (∀ yy xx i' j' : Nat, yy < 8 → xx < 8 → i' < sx → j' < sy →
          bx xx + i' < s.dec.width.toNat → by_ yy + j' < s.dec.height.toNat →
          let o := pixel (bx xx + i') (by_ yy + j')
          ∃ y cb cr : Byte,
            (∀ (n : Nat) (b : Byte), [y, cb, cr][n]? = some b →
              some b = if n = c.index then samples.toList[8 * yy + xx]? else Memory.read img.pix (o + n))
            ∧ Memory.read pix o = some (ycbcrToRgb s.cfg.ccRound y cb cr).1
            ∧ Memory.read pix (o + 1) = some (ycbcrToRgb s.cfg.ccRound y cb cr).2.1
            ∧ Memory.read pix (o + 2) = some (ycbcrToRgb s.cfg.ccRound y cb cr).2.2)
      ∧ (∀ o : Nat, (∀ yy xx i' j' n : Nat, yy < 8 → xx < 8 → i' < sx → j' < sy → n < 3 →
          bx xx + i' < s.dec.width.toNat → by_ yy + j' < s.dec.height.toNat → o ≠ pixel (bx xx + i') (by_ yy + j') + n) →
          Memory.read pix o = Memory.read img.pix o)

/-- 43_mcu_color R149, R150: the cursors count the data units of the scan one by one, and the scan ends at the image's data-unit count
and not before. The premise is the invariant with `D.k` at 0, as completion runs at `D.k = 64`. -/
def Obligations.CursorsCountDataUnits : Prop :=
  ∀ (s : State) (j : Nat) (c : Component),
    (s.withDec { s.dec with k := 0 }).Safe → s.dec.seg = .scan → s.dec.active = some (j, c) →
    ∃ d : Decoder, d = advanceCursors s.dec j c ∧ d.k = 0
      ∧ (unitIndex s.dec c.du + 1 = s.dec.mcuTotal * unitsPerMcu s.dec →
          d.scanComplete = true ∧ d.seg = .marker ∧ d.nbits = 0)
      ∧ (unitIndex s.dec c.du + 1 ≠ s.dec.mcuTotal * unitsPerMcu s.dec →
          d.scanComplete = false ∧ d.seg = .scan ∧ d.nbits = s.dec.nbits
          ∧ ∃ j' c', d.active = some (j', c') ∧ unitIndex d c'.du = unitIndex s.dec c.du + 1)

/-- 43_mcu_color R148: conversions by hand calculation: the rule's own example, neutral chroma, and the clamps at both ends. -/
def Obligations.ColourExamples : Prop :=
  ycbcrToRgb .nearestAway 136 124 134 = (144, 133, 129)
    ∧ (∀ (m : RoundMode) (y : Byte), ycbcrToRgb m y 128 128 = (y, y, y))
    ∧ (ycbcrToRgb .nearestAway 0 0 128).2.2 = 0
    ∧ (ycbcrToRgb .nearestAway 255 255 128).2.2 = 255

/-- 44_transform R160: a block with only a DC coefficient that is a multiple of 8 from -2048 to 2040 gives the constant block
`clamp(0, 255, DC/8 + 128)` under both nearest modes; the clamp acts below -1024 and above 1016. -/
def Obligations.DcOnlyBlockIsFlat : Prop :=
  ∀ (cfg : Params) (m : Int),
    cfg.dctImpl = .reference → cfg.idctRound ≠ .truncate → -256 ≤ m → m ≤ 255 →
    idctSamples cfg ((Vector.replicate 64 (0 : Int)).set 0 (8 * m)) = some (Vector.replicate 64 (clampByte (m + 128)))

/-- 44_transform R159: an inverse transform with a rounded value outside 16 bits is E36 under `IDCT_OVERFLOW = fault`, and saturates
otherwise; a sample is the rounded value plus 128, clamped. -/
def Obligations.SampleRangeIsChecked : Prop :=
  ∀ (cfg : Params) (f : Vector Int 64) (n : Fin 64 → Int),
    (∀ i, n i = F64.round cfg.idctRound (inverseDct cfg f)[i]) →
    ((∀ i, -32768 ≤ n i ∧ n i ≤ 32767) →
      ∃ samples, idctSamples cfg f = some samples ∧ ∀ i : Fin 64, ((samples[i]).toNat : Int) = min 255 (max 0 (n i + 128)))
    ∧ ((∃ i, n i < -32768 ∨ 32767 < n i) → cfg.idctOverflow = .fault → idctSamples cfg f = none)
    ∧ (cfg.idctOverflow = .saturate →
      ∃ samples, idctSamples cfg f = some samples
        ∧ ∀ i : Fin 64, ((samples[i]).toNat : Int) = min 255 (max 0 (min 32767 (max (-32768) (n i)) + 128)))

/-! ### Huffman tables -/

/-- 41_huffman R114, R116: a built table has one code per symbol, in order; every code fits its width; no code is a prefix of another;
the sentinel is the all-ones code of the longest length. -/
def Obligations.BuiltCodesArePrefixFree : Prop :=
  ∀ (counts : Vector Byte 16) (syms : List Byte) (t : HuffTable),
    syms.length = countTotal counts → huffBuild counts syms = some t →
    t.codes.map HuffCode.symbol = syms
    ∧ (∀ c ∈ t.codes, 1 ≤ c.width ∧ c.width ≤ 16 ∧ c.code.toNat < 2 ^ c.width)
    ∧ (∀ l : Fin 16, (t.codes.filter fun c => c.width == l.val + 1).length = (counts[l]).toNat)
    ∧ (∀ (i j : Nat) (c c' : HuffCode), i ≠ j → t.codes[i]? = some c → t.codes[j]? = some c' → c.width ≤ c'.width →
        c'.code.toNat / 2 ^ (c'.width - c.width) ≠ c.code.toNat)
    ∧ (∀ c ∈ t.codes, c.width ≤ t.lmax)
    ∧ (t.codes ≠ [] → (∃ c ∈ t.codes, c.width = t.lmax) ∧ t.sentinel = some (BitVec.ofNat 16 (2 ^ t.lmax - 1), t.lmax))
    ∧ (t.codes = [] → t.sentinel = none)

/-- 41_huffman R114: the build fails exactly when the counts over-subscribe the code space at some length. -/
def Obligations.BuildFailsOnOversubscription : Prop :=
  ∀ (counts : Vector Byte 16) (syms : List Byte),
    huffBuild counts syms = none ↔
      ∃ l : Nat, 1 ≤ l ∧ l ≤ 16 ∧ 2 ^ l < ((List.finRange 16).map fun i => if i.val < l then (counts[i]).toNat * 2 ^ (l - 1 - i.val) else 0).sum

/-- 41_huffman R116, R117: in a built table every code looks up its own symbol, unless it equals the sentinel, which raises E41. -/
def Obligations.CodesDecodeToTheirSymbols : Prop :=
  ∀ (counts : Vector Byte 16) (syms : List Byte) (t : HuffTable) (c : HuffCode),
    syms.length = countTotal counts → huffBuild counts syms = some t → c ∈ t.codes →
    (t.sentinel ≠ some (c.code, c.width) → huffStep t c.code c.width = .symbol c.symbol)
    ∧ (t.sentinel = some (c.code, c.width) → huffStep t c.code c.width = .error .e41)

/-! ### Errors, completion, host operations -/

/-- 60_exceptions R199: error entry latches the code, moves to `ERROR` and signals completion once; nothing else changes.
The list of events is the model's rendering of the signal (log 12). -/
def Obligations.ErrorEntryWrites : Prop :=
  ∀ (e : Err) (s : State),
    (s.dec.completed = false → errorEntry e s = { s with
      dec := { s.dec with error := some e, seg := .error, completed := true }
      host := { s.host with events := s.host.events ++ [.error e] } })
    ∧ (s.dec.completed = true → errorEntry e s = { s with dec := { s.dec with error := some e, seg := .error } })

/-- 46_host_interface R190: a step delivers at most one completion event, only for a decoding that has not completed, and the event is
what the state then holds.
The list of events is the model's rendering of the signal (log 12). -/
def Obligations.CompletionIsDeliveredOnce : Prop :=
  ∀ s t : State, step s = .next t →
    t.host.events = s.host.events
    ∨ (s.dec.completed = false ∧ t.dec.completed = true
      ∧ ((t.dec.seg = .error ∧ ∃ e, t.dec.error = some e ∧ t.host.events = s.host.events ++ [.error e])
        ∨ (t.dec.seg = .done ∧ ∃ img, t.dec.img = some img ∧ t.host.events = s.host.events ++ [.image img])))

/-- 60_exceptions R202, R203: no step changes a decoder in `DONE` or `ERROR`, and none delivers an event, unless the host constructs a
fresh decoder.
The queue of operations is the model's own (log 12). -/
def Obligations.FinalStatesAreFinal : Prop :=
  ∀ s t : State, s.dec.seg.final = true → step s = .next t →
    (s.host.running = false → ∀ ops, s.host.pending ≠ .construct :: ops ∧ ∀ bs, s.host.pending ≠ .decodeSync bs :: ops) →
    t.dec = s.dec ∧ t.host.events = s.host.events

/-- 46_host_interface R186, 20_memory R67: a Feed appends its bytes at `D.avail`, leaves every byte supplied before, and starts the
driver; in a final state, or with bytes after end of stream, it returns `Result()` and changes nothing.
The queue of operations and the running flag are the model's own (log 12). -/
def Obligations.FeedAppendsBytes : Prop :=
  ∀ (s : State) (bytes : List Byte) (eos : Bool) (ops : List HostOp),
    s.host.running = false → s.host.pending = .feed bytes eos :: ops →
    (s.dec.seg.final = false → (s.dec.eos = false ∨ bytes = []) → ∃ input : Memory,
      step s = .next { s with
        dec := { s.dec with input := input, avail := s.dec.avail + bytes.length, eos := s.dec.eos || eos }
        host := { s.host with running := true, pending := ops } }
      ∧ ∀ a : Nat, Memory.read input a =
          if s.dec.avail ≤ a ∧ a < s.dec.avail + bytes.length then bytes[a - s.dec.avail]? else Memory.read s.dec.input a)
    ∧ (s.dec.seg.final = true ∨ s.dec.eos = true ∧ bytes ≠ [] →
      step s = .next { s with host := { s.host with pending := ops, replies := s.host.replies ++ [.feed (feedResult s.dec)] } })

/-- 46_host_interface R187 to R189: the driver of a running Feed returns `Result()` in a final state, and takes a pending cancellation
as E39 before any unit of work; Cancel ends a decoding that has not ended with E39, and has no effect on one that has.
The queue, the running flag and the step of the return are the model's own (log 12, log 14). -/
def Obligations.ReturnsAndCancellation : Prop :=
  ∀ s : State,
    (s.host.running = true → s.dec.seg = .done →
      step s = .next { s with host := { s.host with running := false, replies := s.host.replies ++ [.feed (.done s.dec.img)] } })
    ∧ (s.host.running = true → s.dec.seg = .error →
      step s = .next { s with host := { s.host with running := false, replies := s.host.replies ++ [.feed (.error s.dec.error)] } })
    ∧ (s.host.running = true → s.dec.seg.final = false → s.dec.cancel = true → step s = .next (errorEntry .e39 s))
    ∧ (∀ ops, s.host.running = false → s.host.pending = .cancel :: ops → s.dec.seg.final = true →
      step s = .next { s with host := { s.host with pending := ops } })
    ∧ (∀ ops, s.host.running = false → s.host.pending = .cancel :: ops → s.dec.seg.final = false →
      step s = .next (errorEntry .e39 { s with dec := { s.dec with cancel := true }, host := { s.host with pending := ops } }))

/-- 46_host_interface R191: the queries return what the rule says and change nothing.
The queue of operations and the replies are the model's own (log 12). -/
def Obligations.QueriesOnlyReport : Prop :=
  ∀ (s : State) (ops : List HostOp) (op : HostOp) (r : Reply), s.host.running = false → s.host.pending = op :: ops →
    ((op = .getImage ∧ r = .image (if s.dec.seg = .done then s.dec.img else none))
      ∨ (op = .getError ∧ r = .error (if s.dec.seg = .error then s.dec.error else none))
      ∨ (op = .getComment ∧ r = .comment (if s.dec.seg = .done then s.dec.comment else none))
      ∨ (op = .consumed ∧ r = .consumed s.dec.pos)) →
    step s = .next { s with host := { s.host with pending := ops, replies := s.host.replies ++ [r] } }

/-- 46_host_interface R185, 70_reset_and_hazards R212: `Construct()` gives a decoder with every reset value the rule states, whatever the
decoder before it, and so is the decoder of the reset state. (The fields the rule calls unwritten are not stated.)
`DecodeSync(bytes)` (46_host_interface R192) is that decoder fed all its bytes with end of stream, and no step of a Feed at end of stream
returns `NeedMore`. `ConstructEncoder(image)` (46_host_interface R193, 70_reset_and_hazards R214) gives the encoder's reset values.
The queue of operations and the running flag are the model's own (log 12). -/
def Obligations.ConstructGivesResetValues : Prop :=
  (∀ d : Decoder,
    (d = State.reset.dec
      ∨ ∃ (s t : State) (ops : List HostOp), s.host.running = false ∧ s.host.pending = .construct :: ops ∧ step s = .next t ∧ d = t.dec) →
    d.seg = .marker ∧ d.sub = .magnitude ∧ d.mode = .none ∧ d.pos = 0 ∧ d.avail = 0 ∧ d.eos = false ∧ d.input = [] ∧ d.nbits = 0
    ∧ d.k = 0 ∧ d.hcode = 0 ∧ d.hwidth = 0 ∧ d.run = 0 ∧ d.mag = 0 ∧ d.amp = 0 ∧ d.ampn = 0
    ∧ (∀ t : Fin 4, d.qt[t].defined = false ∧ d.dcTables[t].defined = false ∧ d.dcTables[t].codes = []
        ∧ d.acTables[t].defined = false ∧ d.acTables[t].codes = [])
    ∧ d.framePresent = false ∧ d.comps = [] ∧ d.scanPresent = false ∧ d.scanComplete = false ∧ d.scanPos = 0 ∧ d.mcu = 0
    ∧ d.img = none ∧ d.density = ⟨0, 1, 1⟩ ∧ d.jfifVersion = none ∧ d.comment = none ∧ d.error = none
    ∧ d.completed = false ∧ d.cancel = false)
  ∧ (∀ (s : State) (bytes : List Byte) (ops : List HostOp), s.host.running = false → s.host.pending = .decodeSync bytes :: ops →
    ∃ input : Memory,
      step s = .next { s with
        dec := { Decoder.reset with input := input, avail := bytes.length, eos := true }
        host := { s.host with running := true, pending := ops } }
      ∧ ∀ a : Nat, Memory.read input a = bytes[a]?)
  ∧ (∀ s t : State, s.host.running = true → s.dec.eos = true → step s = .next t → t.dec.eos = true
    ∧ (t.host.running = false → t.dec = s.dec ∧ (s.dec.seg = .done ∨ s.dec.seg = .error)))
  ∧ ∀ (s : State) (img : SrcImage) (ops : List HostOp), s.host.running = false → s.host.pending = .constructEncoder img :: ops →
    step s = .next { s with
      enc := some { src := img, out := [], wacc := [], epred := Vector.replicate 4 0 }, host := { s.host with pending := ops } }

/-! ### What an instruction, and a step, leaves unchanged -/

/-- 10_state R19, R32 to R42, 20_memory R67: which instruction may write what. No instruction writes IN or the other registers of the
host's side, the parameters, the encoder, or the cursors' image; the tables, the frame and scan registers, the comment and the
density are written by their own segment only; only symbols and SOS write the working registers `D.sub`, `D.run`, `D.mag`, `D.amp`,
`D.ampn`; only markers move `D.pos`, never back; only a handler's hold returns to the host; the error register is written only with
`ERROR`, and the completion flag and event only with each other. -/
def Obligations.InstructionsWriteOnlyTheirRegisters : Prop :=
  ∀ (i : Instr) (s t : State), exec i s = .next t →
    t.cfg = s.cfg ∧ t.enc = s.enc ∧ t.host.pending = s.host.pending
    ∧ t.dec.input = s.dec.input ∧ t.dec.avail = s.dec.avail ∧ t.dec.eos = s.dec.eos ∧ t.dec.cancel = s.dec.cancel
    ∧ (i ≠ .dqt → t.dec.qt = s.dec.qt)
    ∧ (i ≠ .dht → t.dec.dcTables = s.dec.dcTables ∧ t.dec.acTables = s.dec.acTables)
    ∧ (i ≠ .com → t.dec.comment = s.dec.comment)
    ∧ (i ≠ .app0 → t.dec.density = s.dec.density ∧ t.dec.jfifVersion = s.dec.jfifVersion)
    ∧ (modeOf i = none → t.dec.framePresent = s.dec.framePresent ∧ t.dec.mode = s.dec.mode ∧ t.dec.sofCode = s.dec.sofCode
        ∧ t.dec.precision = s.dec.precision ∧ t.dec.width = s.dec.width ∧ t.dec.height = s.dec.height ∧ t.dec.nf = s.dec.nf
        ∧ t.dec.hmax = s.dec.hmax ∧ t.dec.vmax = s.dec.vmax ∧ t.dec.mcux = s.dec.mcux ∧ t.dec.mcuy = s.dec.mcuy
        ∧ t.dec.mcuTotal = s.dec.mcuTotal)
    ∧ (modeOf i = none → i ≠ .eoi → t.dec.img = s.dec.img)
    ∧ (modeOf i = none → i ≠ .sos → t.dec.comps = s.dec.comps)
    ∧ (i ≠ .sos → t.dec.scanPresent = s.dec.scanPresent ∧ t.dec.ns = s.dec.ns ∧ t.dec.order = s.dec.order
        ∧ t.dec.ss = s.dec.ss ∧ t.dec.se = s.dec.se ∧ t.dec.ah = s.dec.ah ∧ t.dec.al = s.dec.al
        ∧ t.dec.scanPos = s.dec.scanPos ∧ t.dec.mcu = s.dec.mcu ∧ t.dec.nbits = s.dec.nbits ∧ t.dec.k = s.dec.k
        ∧ t.dec.hcode = s.dec.hcode ∧ t.dec.hwidth = s.dec.hwidth)
    ∧ t.dec.acc = s.dec.acc ∧ t.dec.scanComplete = s.dec.scanComplete
    ∧ (i.kind = .marker → i ≠ .sos → t.dec.sub = s.dec.sub ∧ t.dec.run = s.dec.run ∧ t.dec.mag = s.dec.mag ∧ t.dec.amp = s.dec.amp
        ∧ t.dec.ampn = s.dec.ampn)
    ∧ s.dec.pos ≤ t.dec.pos ∧ (i.kind ≠ .marker → t.dec.pos = s.dec.pos)
    ∧ (handlerOf i = none → t.host.running = s.host.running ∧ t.host.replies = s.host.replies)
    ∧ (handlerOf i = none → i ≠ .eoi → t.dec.seg = s.dec.seg ∨ t.dec.seg = .error ∨ i = .soi ∧ t.dec.seg = .marker)
    ∧ (t.dec.error = s.dec.error ∨ t.dec.seg = .error ∧ t.dec.error.isSome = true)
    ∧ (t.dec.completed = s.dec.completed ∧ t.host.events = s.host.events
      ∨ s.dec.completed = false ∧ t.dec.completed = true ∧ t.dec.seg.final = true ∧ ∃ x, t.host.events = s.host.events ++ [x])

/-- 70_reset_and_hazards R219, R221: a step inside the scan changes no table, no frame or scan header register, no input byte; of the
component registers it changes no header field (10_state R35) and not their number, of the image not its size. -/
def Obligations.ScanKeepsTablesAndHeaders : Prop :=
  ∀ s t : State, s.host.running = true → s.dec.seg = .scan → step s = .next t →
    t.cfg = s.cfg ∧ t.enc = s.enc ∧ t.host.pending = s.host.pending
    ∧ t.dec.input = s.dec.input ∧ t.dec.avail = s.dec.avail ∧ t.dec.eos = s.dec.eos ∧ t.dec.cancel = s.dec.cancel
    ∧ t.dec.qt = s.dec.qt ∧ t.dec.dcTables = s.dec.dcTables ∧ t.dec.acTables = s.dec.acTables
    ∧ t.dec.framePresent = s.dec.framePresent ∧ t.dec.mode = s.dec.mode ∧ t.dec.sofCode = s.dec.sofCode
    ∧ t.dec.precision = s.dec.precision ∧ t.dec.width = s.dec.width ∧ t.dec.height = s.dec.height ∧ t.dec.nf = s.dec.nf
    ∧ t.dec.hmax = s.dec.hmax ∧ t.dec.vmax = s.dec.vmax ∧ t.dec.mcux = s.dec.mcux ∧ t.dec.mcuy = s.dec.mcuy
    ∧ t.dec.mcuTotal = s.dec.mcuTotal ∧ t.dec.scanPresent = s.dec.scanPresent ∧ t.dec.ns = s.dec.ns ∧ t.dec.order = s.dec.order
    ∧ t.dec.ss = s.dec.ss ∧ t.dec.se = s.dec.se ∧ t.dec.ah = s.dec.ah ∧ t.dec.al = s.dec.al
    ∧ t.dec.comment = s.dec.comment ∧ t.dec.density = s.dec.density ∧ t.dec.jfifVersion = s.dec.jfifVersion
    ∧ t.dec.comps.length = s.dec.comps.length
    ∧ (∀ (j : Nat) (c : Component), s.dec.comps[j]? = some c → ∃ c', t.dec.comps[j]? = some c' ∧ c'.id = c.id ∧ c'.index = c.index
        ∧ c'.h = c.h ∧ c'.v = c.v ∧ c'.tq = c.tq ∧ c'.td = c.td ∧ c'.ta = c.ta)
    ∧ (s.dec.img = none → t.dec.img = none)
    ∧ ∀ img, s.dec.img = some img → ∃ img', t.dec.img = some img' ∧ img'.width = img.width ∧ img'.height = img.height
        ∧ img'.ncomp = img.ncomp ∧ img'.density = img.density

/-- 10_state R23, 46_host_interface R195: inside a running Feed `D.pos` never decreases. -/
def Obligations.PositionNeverDecreases : Prop :=
  ∀ s t : State, s.host.running = true → step s = .next t → s.dec.pos ≤ t.dec.pos

/-! ### Invariants -/

/-- The reset state meets the invariant. -/
def Obligations.ResetIsSafe : Prop := State.reset.Safe

/-- Every step keeps the invariant: the canonical form of the byte spaces, the registers' ranges, the agreement of flags and segment
state, what an accepted frame and scan header leave (10_state R52, R53), and which image cells hold a value. -/
def Obligations.StepKeepsSafety : Prop := ∀ s t : State, s.Safe → step s = .next t → t.Safe

/-- From a state that meets the invariant no step faults: no field is read before a rule writes it, the colour converter reads only
written cells, and every written cell lies in the image (20_memory R62, 43_mcu_color R153, 70_reset_and_hazards R213). -/
def Obligations.SafeStatesNeverFault : Prop := ∀ (s : State) (f : Fault), s.Safe → step s ≠ .fault f

/-- 20_memory R54: the canonical form of IN and IMG, by itself: every step keeps it, from every state that has it.
The form is the model's own (log 4). -/
def Obligations.StepKeepsCanonicalMemory : Prop :=
  ∀ s t : State, s.dec.input.wf → (∀ img, s.dec.img = some img → img.pix.wf) → step s = .next t →
    t.dec.input.wf ∧ ∀ img, t.dec.img = some img → img.pix.wf

/-- 20_memory R68, 46_host_interface R194, one step: a unit of work that does not hold does the same with more input supplied, and
leaves the same state but for that input.
What one step is rests on log 1 and log 14. -/
def Obligations.MoreInputChangesNothing : Prop :=
  ∀ (s t : State) (bytes : List Byte),
    s.host.running = true → step s = .next t → t.host.running = true → s.dec.eos = false →
    step (s.withDec (s.dec.supply bytes false)) = .next (t.withDec (t.dec.supply bytes false))

/-- 20_memory R68, 46_host_interface R194: a stream fed in two pieces gives the same result, image, density, comment and position as
the same stream fed at once.
The running flag and the events are the model's own (log 12). -/
def Obligations.ChunksGiveTheSameResult : Prop :=
  ∀ (s whole first second : State) (b1 b2 : List Byte) (eos : Bool) (n n1 n2 : Nat),
    s.Safe → s.host.running = false → s.dec.seg.final = false → s.dec.eos = false →
    Host.Core.run Sys2Proof.core n (hostFeed (b1 ++ b2) eos s) = .next whole → whole.host.running = false →
    Host.Core.run Sys2Proof.core n1 (hostFeed b1 false s) = .next first → first.host.running = false →
    Host.Core.run Sys2Proof.core n2 (hostFeed b2 eos first) = .next second → second.host.running = false →
    s.host.pending = [] →
    feedResult whole.dec = feedResult second.dec ∧ whole.dec.seg = second.dec.seg ∧ whole.dec.pos = second.dec.pos
    ∧ whole.dec.density = second.dec.density ∧ whole.dec.comment = second.dec.comment ∧ whole.host.events = second.host.events

/-- 46_host_interface R187, 70_reset_and_hazards R223: a running Feed returns, within a number of steps bounded by the bytes and bits
not yet consumed.
The constant counts the model's own steps of return (log 14). -/
def Obligations.FeedAlwaysReturns : Prop :=
  ∀ s : State, s.Safe → s.host.running = true →
    ∃ (n : Nat) (t : State), n ≤ 8 * (s.dec.avail - s.dec.pos) + s.dec.nbits + 3
      ∧ Host.Core.run Sys2Proof.core n s = .next t ∧ t.host.running = false

/-! ### Encoder -/

/-- 45_encoder R166, 60_exceptions R205: an image outside the preconditions is refused with EF1 and nothing is written.
The queue of operations and the replies are the model's own (log 12). -/
def Obligations.UnencodableImagesAreRefused : Prop :=
  ∀ (s : State) (e : Encoder) (ops : List HostOp),
    s.host.running = false → s.host.pending = .encode :: ops → s.enc = some e →
    ¬(1 ≤ e.src.width ∧ e.src.width ≤ 65535 ∧ 1 ≤ e.src.height ∧ e.src.height ≤ 65535 ∧ 1 ≤ e.src.ncomp ∧ e.src.ncomp ≤ 4
      ∧ e.src.pix.length = e.src.width * e.src.height * e.src.ncomp) →
    ∃ e' : Encoder, e'.out = e.out ∧ e'.src = e.src
      ∧ step s = .next { s with
          enc := some e', host := { s.host with pending := ops, replies := s.host.replies ++ [.encodeRefused .ef1] } }

/-- 45_encoder R166 to R182, 46_host_interface R193: the encoder's stream. When every coefficient and DC difference has a code
(R179: bit lengths up to 10 and 11), encoding an image inside the preconditions completes. A completed encoding appends to the sink the
header segments (R167 to R174), entropy-coded bytes without a marker, and EOI. Those bytes without their stuffing are the bits of the
blocks in stream order, padded with fewer than 8 one-bits: block `i` codes the difference of its first coefficient from that of the
block before it of the same component (0 for the first), then the other 63 (R175 to R178).
The samples are the source's own, but for the open conversion of R183 (`encodedSource`, log 9). The queue and the replies are the
model's own (log 12). -/
def Obligations.EncodedStreamLayout : Prop :=
  ∀ (s : State) (e : Encoder) (ops : List HostOp), s.host.running = false → s.host.pending = .encode :: ops → s.enc = some e →
    let src := encodedSource s.cfg e.src
    let n := src.ncomp
    let total := ceilDiv src.height 8 * ceilDiv src.width 8 * n
    let coef := sourceCoef s.cfg src
    let diff := fun i : Nat => coef i 0 - (if i < n then 0 else coef (i - n) 0)
    let header := streamHeader src.width src.height n
    (1 ≤ src.width → src.width ≤ 65535 → 1 ≤ src.height → src.height ≤ 65535 → 1 ≤ n → n ≤ 4 →
      e.src.pix.length = src.width * src.height * n →
      (∀ i < total, bitlen (diff i) ≤ 11 ∧ ∀ k : Fin 64, k ≠ 0 → bitlen (coef i k) ≤ 10) →
      ∃ e', Encoder.encode s.cfg e = .ok e')
    ∧ ∀ e' : Encoder, Encoder.encode s.cfg e = .ok e' →
      step s = .next { s with enc := some e', host := { s.host with pending := ops, replies := s.host.replies ++ [.encodeOk] } }
      ∧ e'.wacc = [] ∧ e'.src = e.src
      ∧ header.length = (match n with | 1 => 324 | 2 => 602 | 3 => 607 | _ => 612)
      ∧ ∃ (ecs : List Byte) (blocks : List (List Bool)) (pad : Nat),
        e'.out = e.out ++ header ++ ecs ++ [0xFF, 0xD9] ∧ noMarker ecs
        ∧ (unstuff ecs).flatMap bitsOf = blocks.flatten ++ List.replicate pad true ∧ pad < 8
        ∧ blocks.length = total
        ∧ ∀ (i : Nat) (bits : List Bool), blocks[i]? = some bits →
          BlockCoded (tableSelector (i % n)) (diff i) ((List.finRange 63).map fun k => coef i k.succ) bits

/-- 45_encoder R180 to R182, 20_memory R57, 30_encoding R80: bits put come out most significant first: the bytes appended, unstuffed,
and the bits still pending are the bits pending before followed by the bits put; every appended `FF` is followed by `00`. Flushing pads
the pending bits with 1-bits to one byte, stuffed when it is `FF`; with none pending it writes nothing. -/
def Obligations.BitWriterKeepsEveryBit : Prop :=
  ∀ e : Encoder, e.wacc.length < 8 →
    (∀ value w : Nat, ∃ added wacc,
      e.putBits value w = { e with out := e.out ++ added, wacc := wacc } ∧ noMarker added ∧ wacc.length < 8
      ∧ (unstuff added).flatMap bitsOf ++ wacc = e.wacc ++ bitsOfValue value w)
    ∧ (e.wacc = [] → e.flushBits = e)
    ∧ (e.wacc ≠ [] → ∃ b : Byte, bitsOf b = e.wacc ++ List.replicate (8 - e.wacc.length) true
      ∧ e.flushBits = { e with out := e.out ++ (if b = 0xFF then [b, 0x00] else [b]), wacc := [] })
end

