-- ==== Sys2Proof/Laws/Encoder.lean ====
section
/-! SUPPORT. What the encoder's small operations do, said once: actions, the stuffed bytes, the block order, the standard tables. -/

namespace Sys2Proof.Machine

/-! ### Actions -/

theorem EncAct.andThen_ok {a : EncAct} {f : Encoder → EncAct} {e' : Encoder} : a.andThen f = .ok e' ↔ ∃ e, a = .ok e ∧ f e = .ok e' := by
  cases a <;> simp [EncAct.andThen]

/-- A symbol is put exactly when the table has a code for it (R178, 41_huffman R118). -/
theorem putSymbol_ok {t : HuffTable} {v : Nat} {e e' : Encoder} :
    putSymbol t v e = .ok e' ↔ ∃ code w, huffEncode t v = some (code, w) ∧ e' = e.putBits code w := by
  unfold putSymbol
  split
  · rename_i h; simp [h, eq_comm]
  · rename_i h; simp [h]

theorem codeBits_of_huffEncode {t : HuffTable} {v code w : Nat} (h : huffEncode t v = some (code, w)) :
    codeBits t v = some (bitsOfValue code w) := by
  unfold codeBits; rw [h]; rfl

/-- The predictors after one is written (10_state R50). -/
theorem predOf_set (e : Encoder) {c : Nat} (c' : Nat) (v : Int) (hc : c < 4) :
    predOf { e with epred := e.epred.setIfInBounds c v } c' = if c' = c then v else predOf e c' := by
  unfold predOf
  rw [Vector.toList_setIfInBounds, List.getD_eq_getElem?_getD, List.getD_eq_getElem?_getD, List.getElem?_set]
  by_cases h : c = c'
  · subst h; simp [hc]
  · rw [if_neg h, if_neg (by omega)]

/-! ### Bits and stuffed bytes (R180, R181) -/

theorem bitsOfValue_succ (v w : Nat) : bitsOfValue v (w + 1) = v.testBit w :: bitsOfValue v w := by
  unfold bitsOfValue
  rw [List.range_succ_eq_map, List.map_cons, List.map_map]
  simp only [Nat.add_sub_cancel, Nat.sub_zero, List.cons.injEq, true_and]
  apply List.map_congr_left
  intro i _
  simp only [Function.comp]
  congr 1
  omega

theorem unstuff_stuffed (b : Byte) (rest : List Byte) : unstuff (stuffed b ++ rest) = b :: unstuff rest := by
  unfold stuffed unstuff
  split
  · rename_i h; subst h; simp [dropStuffing]
  · rename_i h
    simp only [List.cons_append, List.nil_append, dropStuffing, Bool.false_and]
    rw [show (b == 0xFF) = false from beq_eq_false_iff_ne.2 h]
    rfl

/-! ### The standard tables (R173, R179) -/

/-- Every DC size has a code in both standard DC tables. -/
theorem stdDc_hasCode : ∀ t < 2, ∀ v < 12, (huffEncode (stdDc t) v).isSome = true := by decide +kernel

/-- Every run and size 1 to 10 has a code in both standard AC tables. -/
theorem stdAc_hasCode : ∀ t < 2, ∀ run < 16, ∀ z < 10, (huffEncode (stdAc t) (16 * run + (z + 1))).isSome = true := by decide +kernel

/-- ZRL and EOB have codes in both standard AC tables. -/
theorem stdAc_hasZrlEob : ∀ t < 2, (huffEncode (stdAc t) 0xF0).isSome = true ∧ (huffEncode (stdAc t) 0x00).isSome = true := by decide +kernel

/-- The table in natural order holds at each zig-zag position what R173's zig-zag list says. -/
theorem stdQ_zigzag (c : Nat) (k : Fin 64) : (stdQ (sel c)).getD (zigzagPos k.val).val 0 = (quantTable (tableSelector c))[k] := by
  have h0 : ∀ k : Fin 64, (stdQ 0).getD (zigzagPos k.val).val 0 = (quantTable 0)[k] := by decide +kernel
  have h1 : ∀ k : Fin 64, (stdQ 1).getD (zigzagPos k.val).val 0 = (quantTable 1)[k] := by decide +kernel
  unfold sel tableSelector
  split
  · exact h0 k
  · exact h1 k

theorem quantise_get (m : QuantRound) (g : Vector F64 64) (q : List Byte) (p : Fin 64) :
    (quantise m g q)[p] = F64.round (quantMode m) (F64.div g[p] (F64.ofInt (q.getD p.val 0).toNat)) := by
  unfold quantise; simp

/-! ### The block order (R176) -/

/-- Two nested ranges counted by one. -/
theorem flatMap_range {α : Type} (a b : Nat) (f : Nat → Nat → α) :
    ((List.range a).flatMap fun x => (List.range b).map (f x)) = (List.range (a * b)).map fun i => f (i / b) (i % b) := by
  rcases Nat.eq_zero_or_pos b with rfl | hb
  · simp
  · induction a with
    | zero => simp
    | succ a ih =>
      rw [List.range_succ, List.flatMap_append, ih, Nat.succ_mul, List.range_add, List.map_append]
      congr 1
      simp only [List.flatMap_cons, List.flatMap_nil, List.append_nil, List.map_map]
      apply List.map_congr_left
      intro i hi
      rw [List.mem_range] at hi
      simp only [Function.comp]
      rw [Nat.mul_comm a b, Nat.mul_add_div hb, Nat.div_eq_of_lt hi, Nat.mul_add_mod, Nat.mod_eq_of_lt hi, Nat.add_zero]

/-- The block at place `i`: its row, its column, its component. -/
theorem blockOrder_eq (src : SrcImage) :
    blockOrder src = (List.range (ceilDiv src.height 8 * ceilDiv src.width 8 * src.ncomp)).map fun i =>
      (i / src.ncomp / ceilDiv src.width 8, i / src.ncomp % ceilDiv src.width 8, i % src.ncomp) := by
  unfold blockOrder
  simp only [show ∀ x, (x + 7) / 8 = ceilDiv x 8 from fun _ => rfl]
  have h : ∀ byy : Nat, ((List.range (ceilDiv src.width 8)).flatMap fun bx => (List.range src.ncomp).map fun c => (byy, bx, c))
      = (List.range (ceilDiv src.width 8 * src.ncomp)).map fun i => (byy, i / src.ncomp, i % src.ncomp) :=
    fun byy => flatMap_range _ _ fun bx c => (byy, bx, c)
  simp only [h]
  rw [flatMap_range _ _ fun byy i => (byy, i / src.ncomp, i % src.ncomp), Nat.mul_assoc]
  apply List.map_congr_left
  intro i _
  rw [Nat.mod_mul_left_mod, Nat.mul_comm (ceilDiv src.width 8), Nat.div_div_eq_div_mul, ← Nat.mod_mul_right_div_self]

end Sys2Proof.Machine
end

