-- ==== Sys2Proof/Laws/Memory.lean ====
section
/-! SUPPORT. The laws of the byte spaces: read after write, and the canonical form kept by every operation. -/

namespace Sys2Proof.Machine

@[simp] theorem Memory.read_nil (a : Nat) : Memory.read [] a = none := rfl

theorem Memory.read_cons (b : Nat) (v : Byte) (rest : Memory) (a : Nat) :
    Memory.read ((b, v) :: rest) a = if a = b then some v else Memory.read rest a := rfl

theorem Memory.read_write (m : Memory) (a x : Nat) (v : Byte) :
    Memory.read (Memory.write m a v) x = if x = a then some v else Memory.read m x := by
  induction m with
  | nil => rfl
  | cons c rest ih =>
    obtain ⟨b, w⟩ := c
    simp only [Memory.write]
    split
    · rfl
    · split
      · subst a
        by_cases hx : x = b <;> simp [Memory.read_cons, hx]
      · rename_i h1 h2
        by_cases hx : x = b
        · simp [Memory.read_cons, hx, show b ≠ a by omega]
        · simp [Memory.read_cons, hx, ih]

@[simp] theorem Memory.read_write_same (m : Memory) (a : Nat) (v : Byte) : Memory.read (Memory.write m a v) a = some v := by
  simp [Memory.read_write]

theorem Memory.read_write_other (m : Memory) {a x : Nat} (v : Byte) (h : x ≠ a) :
    Memory.read (Memory.write m a v) x = Memory.read m x := by
  simp [Memory.read_write, h]

theorem Memory.mem_write {m : Memory} {a : Nat} {v : Byte} {c : Host.Cell} (h : c ∈ Memory.write m a v) : c = (a, v) ∨ c ∈ m := by
  induction m with
  | nil => simpa [Memory.write] using h
  | cons d rest ih =>
    obtain ⟨b, w⟩ := d
    simp only [Memory.write] at h
    split at h
    · simpa using h
    · split at h
      · rcases List.mem_cons.1 h with h | h
        · exact .inl h
        · exact .inr (List.mem_cons_of_mem _ h)
      · rcases List.mem_cons.1 h with h | h
        · exact .inr (h ▸ List.mem_cons_self)
        · exact (ih h).imp_right (List.mem_cons_of_mem _)

theorem Memory.wf_write {m : Memory} (h : m.wf) (a : Nat) (v : Byte) : (Memory.write m a v).wf := by
  induction m with
  | nil => simp [Memory.write, Memory.wf]
  | cons d rest ih =>
    obtain ⟨b, w⟩ := d
    obtain ⟨hb, hr⟩ := List.pairwise_cons.1 h
    simp only [Memory.write]
    split
    · rename_i hab
      refine List.pairwise_cons.2 ⟨fun c hc => ?_, h⟩
      rcases List.mem_cons.1 hc with rfl | hc
      · exact hab
      · exact Nat.lt_trans hab (hb c hc)
    · split
      · rename_i hab
        subst hab
        exact List.pairwise_cons.2 ⟨hb, hr⟩
      · refine List.pairwise_cons.2 ⟨fun c hc => ?_, ih hr⟩
        rcases Memory.mem_write hc with rfl | hc
        · simp only; omega
        · exact hb c hc

theorem Memory.wf_writeBytes {m : Memory} (h : m.wf) (a : Nat) (vs : List Byte) : (Memory.writeBytes m a vs).wf := by
  induction vs generalizing m a with
  | nil => exact h
  | cons v vs ih => exact ih (Memory.wf_write h a v) (a + 1)

theorem Memory.read_writeBytes_below (m : Memory) {a x : Nat} (vs : List Byte) (h : x < a) :
    Memory.read (Memory.writeBytes m a vs) x = Memory.read m x := by
  induction vs generalizing m a with
  | nil => rfl
  | cons v vs ih =>
    rw [Memory.writeBytes, ih _ (by omega), Memory.read_write_other _ _ (by omega)]

theorem Memory.read_writeBytes (m : Memory) (a x : Nat) (vs : List Byte) :
    Memory.read (Memory.writeBytes m a vs) x = if a ≤ x ∧ x < a + vs.length then vs[x - a]? else Memory.read m x := by
  induction vs generalizing m a with
  | nil => simp [Memory.writeBytes, show ¬(a ≤ x ∧ x < a) by omega]
  | cons v vs ih =>
    rw [Memory.writeBytes, ih, Memory.read_write]
    simp only [List.length_cons]
    by_cases h : x = a
    · subst h; simp
    · by_cases h' : a ≤ x ∧ x < a + (vs.length + 1)
      · rw [if_pos (by omega), if_pos h', show x - a = (x - (a + 1)) + 1 by omega, List.getElem?_cons_succ]
      · rw [if_neg (by omega), if_neg h, if_neg h']

theorem Memory.readBytes_length {m : Memory} {a n : Nat} {vs : List Byte} (h : Memory.readBytes m a n = some vs) : vs.length = n := by
  induction n generalizing a vs with
  | zero => cases h; rfl
  | succ n ih =>
    simp only [Memory.readBytes] at h
    split at h
    · rename_i h2
      cases h
      simp [ih h2]
    · cases h

theorem Memory.readBytes_congr {m m' : Memory} {a n : Nat} (h : ∀ i, i < n → Memory.read m (a + i) = Memory.read m' (a + i)) :
    Memory.readBytes m a n = Memory.readBytes m' a n := by
  induction n generalizing a with
  | zero => rfl
  | succ n ih =>
    have h0 := h 0 (by omega)
    rw [Nat.add_zero] at h0
    simp only [Memory.readBytes, h0, ih (a := a + 1) fun i hi => by
      rw [Nat.add_right_comm a 1 i, Nat.add_assoc a i 1]
      exact h (i + 1) (by omega)]

theorem Memory.readBytes_isSome {m : Memory} {a n : Nat} (h : ∀ i, i < n → (Memory.read m (a + i)).isSome = true) :
    (Memory.readBytes m a n).isSome = true := by
  induction n generalizing a with
  | zero => rfl
  | succ n ih =>
    have h0 := h 0 (by omega)
    have h1 := ih (a := a + 1) fun i hi => by
      rw [Nat.add_right_comm a 1 i, Nat.add_assoc a i 1]
      exact h (i + 1) (by omega)
    obtain ⟨v, hv⟩ := Option.isSome_iff_exists.1 h0
    obtain ⟨vs, hvs⟩ := Option.isSome_iff_exists.1 h1
    simp only [Nat.add_zero] at hv
    simp [Memory.readBytes, hv, hvs]

theorem Memory.be16_congr {m m' : Memory} {a : Nat} (h0 : Memory.read m a = Memory.read m' a)
    (h1 : Memory.read m (a + 1) = Memory.read m' (a + 1)) : Memory.be16 m a = Memory.be16 m' a := by
  simp only [Memory.be16, h0, h1]

theorem be16Of_lt (hi lo : Byte) : be16Of hi lo < 65536 := by
  have := hi.isLt
  have := lo.isLt
  unfold be16Of
  omega

end Sys2Proof.Machine
end

