-- ==== Sys2Proof/Laws/State.lean ====
section
/-! SUPPORT. One lemma per field of each named update of the state, true by `rfl`, so that no proof unfolds a record update. -/

namespace Sys2Proof.Machine

/-! ### Updates of the whole state -/

@[simp] theorem State.withDec_dec (s : State) (d : Decoder) : (s.withDec d).dec = d := rfl
@[simp] theorem State.withDec_cfg (s : State) (d : Decoder) : (s.withDec d).cfg = s.cfg := rfl
@[simp] theorem State.withDec_enc (s : State) (d : Decoder) : (s.withDec d).enc = s.enc := rfl
@[simp] theorem State.withDec_host (s : State) (d : Decoder) : (s.withDec d).host = s.host := rfl
@[simp] theorem State.withDec_withDec (s : State) (d e : Decoder) : (s.withDec d).withDec e = s.withDec e := rfl
@[simp] theorem State.consume_cfg (s : State) (n : Nat) : (s.consume n).cfg = s.cfg := rfl
@[simp] theorem State.goto_cfg (s : State) (seg : Seg) : (s.goto seg).cfg = s.cfg := rfl
@[simp] theorem segRetire_cfg (len : Nat) (next : Seg) (s : State) : (segRetire len next s).cfg = s.cfg := rfl
@[simp] theorem State.consume_enc (s : State) (n : Nat) : (s.consume n).enc = s.enc := rfl
@[simp] theorem State.goto_enc (s : State) (seg : Seg) : (s.goto seg).enc = s.enc := rfl
@[simp] theorem segRetire_enc (len : Nat) (next : Seg) (s : State) : (segRetire len next s).enc = s.enc := rfl
@[simp] theorem State.consume_host (s : State) (n : Nat) : (s.consume n).host = s.host := rfl
@[simp] theorem State.goto_host (s : State) (seg : Seg) : (s.goto seg).host = s.host := rfl
@[simp] theorem segRetire_host (len : Nat) (next : Seg) (s : State) : (segRetire len next s).host = s.host := rfl
@[simp] theorem State.consume_dec_seg (s : State) (n : Nat) : (s.consume n).dec.seg = s.dec.seg := rfl
@[simp] theorem State.consume_dec_sub (s : State) (n : Nat) : (s.consume n).dec.sub = s.dec.sub := rfl
@[simp] theorem State.consume_dec_mode (s : State) (n : Nat) : (s.consume n).dec.mode = s.dec.mode := rfl
@[simp] theorem State.consume_dec_sofCode (s : State) (n : Nat) : (s.consume n).dec.sofCode = s.dec.sofCode := rfl
@[simp] theorem State.consume_dec_pos (s : State) (n : Nat) : (s.consume n).dec.pos = s.dec.pos + n := rfl
@[simp] theorem State.consume_dec_avail (s : State) (n : Nat) : (s.consume n).dec.avail = s.dec.avail := rfl
@[simp] theorem State.consume_dec_eos (s : State) (n : Nat) : (s.consume n).dec.eos = s.dec.eos := rfl
@[simp] theorem State.consume_dec_input (s : State) (n : Nat) : (s.consume n).dec.input = s.dec.input := rfl
@[simp] theorem State.consume_dec_acc (s : State) (n : Nat) : (s.consume n).dec.acc = s.dec.acc := rfl
@[simp] theorem State.consume_dec_nbits (s : State) (n : Nat) : (s.consume n).dec.nbits = s.dec.nbits := rfl
@[simp] theorem State.consume_dec_k (s : State) (n : Nat) : (s.consume n).dec.k = s.dec.k := rfl
@[simp] theorem State.consume_dec_hcode (s : State) (n : Nat) : (s.consume n).dec.hcode = s.dec.hcode := rfl
@[simp] theorem State.consume_dec_hwidth (s : State) (n : Nat) : (s.consume n).dec.hwidth = s.dec.hwidth := rfl
@[simp] theorem State.consume_dec_run (s : State) (n : Nat) : (s.consume n).dec.run = s.dec.run := rfl
@[simp] theorem State.consume_dec_mag (s : State) (n : Nat) : (s.consume n).dec.mag = s.dec.mag := rfl
@[simp] theorem State.consume_dec_amp (s : State) (n : Nat) : (s.consume n).dec.amp = s.dec.amp := rfl
@[simp] theorem State.consume_dec_ampn (s : State) (n : Nat) : (s.consume n).dec.ampn = s.dec.ampn := rfl
@[simp] theorem State.consume_dec_qt (s : State) (n : Nat) : (s.consume n).dec.qt = s.dec.qt := rfl
@[simp] theorem State.consume_dec_dcTables (s : State) (n : Nat) : (s.consume n).dec.dcTables = s.dec.dcTables := rfl
@[simp] theorem State.consume_dec_acTables (s : State) (n : Nat) : (s.consume n).dec.acTables = s.dec.acTables := rfl
@[simp] theorem State.consume_dec_framePresent (s : State) (n : Nat) : (s.consume n).dec.framePresent = s.dec.framePresent := rfl
@[simp] theorem State.consume_dec_precision (s : State) (n : Nat) : (s.consume n).dec.precision = s.dec.precision := rfl
@[simp] theorem State.consume_dec_height (s : State) (n : Nat) : (s.consume n).dec.height = s.dec.height := rfl
@[simp] theorem State.consume_dec_width (s : State) (n : Nat) : (s.consume n).dec.width = s.dec.width := rfl
@[simp] theorem State.consume_dec_nf (s : State) (n : Nat) : (s.consume n).dec.nf = s.dec.nf := rfl
@[simp] theorem State.consume_dec_hmax (s : State) (n : Nat) : (s.consume n).dec.hmax = s.dec.hmax := rfl
@[simp] theorem State.consume_dec_vmax (s : State) (n : Nat) : (s.consume n).dec.vmax = s.dec.vmax := rfl
@[simp] theorem State.consume_dec_mcux (s : State) (n : Nat) : (s.consume n).dec.mcux = s.dec.mcux := rfl
@[simp] theorem State.consume_dec_mcuy (s : State) (n : Nat) : (s.consume n).dec.mcuy = s.dec.mcuy := rfl
@[simp] theorem State.consume_dec_mcuTotal (s : State) (n : Nat) : (s.consume n).dec.mcuTotal = s.dec.mcuTotal := rfl
@[simp] theorem State.consume_dec_comps (s : State) (n : Nat) : (s.consume n).dec.comps = s.dec.comps := rfl
@[simp] theorem State.consume_dec_scanPresent (s : State) (n : Nat) : (s.consume n).dec.scanPresent = s.dec.scanPresent := rfl
@[simp] theorem State.consume_dec_ns (s : State) (n : Nat) : (s.consume n).dec.ns = s.dec.ns := rfl
@[simp] theorem State.consume_dec_order (s : State) (n : Nat) : (s.consume n).dec.order = s.dec.order := rfl
@[simp] theorem State.consume_dec_ss (s : State) (n : Nat) : (s.consume n).dec.ss = s.dec.ss := rfl
@[simp] theorem State.consume_dec_se (s : State) (n : Nat) : (s.consume n).dec.se = s.dec.se := rfl
@[simp] theorem State.consume_dec_ah (s : State) (n : Nat) : (s.consume n).dec.ah = s.dec.ah := rfl
@[simp] theorem State.consume_dec_al (s : State) (n : Nat) : (s.consume n).dec.al = s.dec.al := rfl
@[simp] theorem State.consume_dec_scanComplete (s : State) (n : Nat) : (s.consume n).dec.scanComplete = s.dec.scanComplete := rfl
@[simp] theorem State.consume_dec_scanPos (s : State) (n : Nat) : (s.consume n).dec.scanPos = s.dec.scanPos := rfl
@[simp] theorem State.consume_dec_mcu (s : State) (n : Nat) : (s.consume n).dec.mcu = s.dec.mcu := rfl
@[simp] theorem State.consume_dec_img (s : State) (n : Nat) : (s.consume n).dec.img = s.dec.img := rfl
@[simp] theorem State.consume_dec_density (s : State) (n : Nat) : (s.consume n).dec.density = s.dec.density := rfl
@[simp] theorem State.consume_dec_jfifVersion (s : State) (n : Nat) : (s.consume n).dec.jfifVersion = s.dec.jfifVersion := rfl
@[simp] theorem State.consume_dec_comment (s : State) (n : Nat) : (s.consume n).dec.comment = s.dec.comment := rfl
@[simp] theorem State.consume_dec_error (s : State) (n : Nat) : (s.consume n).dec.error = s.dec.error := rfl
@[simp] theorem State.consume_dec_completed (s : State) (n : Nat) : (s.consume n).dec.completed = s.dec.completed := rfl
@[simp] theorem State.consume_dec_cancel (s : State) (n : Nat) : (s.consume n).dec.cancel = s.dec.cancel := rfl
@[simp] theorem State.goto_dec_seg (s : State) (seg : Seg) : (s.goto seg).dec.seg = seg := rfl
@[simp] theorem State.goto_dec_sub (s : State) (seg : Seg) : (s.goto seg).dec.sub = s.dec.sub := rfl
@[simp] theorem State.goto_dec_mode (s : State) (seg : Seg) : (s.goto seg).dec.mode = s.dec.mode := rfl
@[simp] theorem State.goto_dec_sofCode (s : State) (seg : Seg) : (s.goto seg).dec.sofCode = s.dec.sofCode := rfl
@[simp] theorem State.goto_dec_pos (s : State) (seg : Seg) : (s.goto seg).dec.pos = s.dec.pos := rfl
@[simp] theorem State.goto_dec_avail (s : State) (seg : Seg) : (s.goto seg).dec.avail = s.dec.avail := rfl
@[simp] theorem State.goto_dec_eos (s : State) (seg : Seg) : (s.goto seg).dec.eos = s.dec.eos := rfl
@[simp] theorem State.goto_dec_input (s : State) (seg : Seg) : (s.goto seg).dec.input = s.dec.input := rfl
@[simp] theorem State.goto_dec_acc (s : State) (seg : Seg) : (s.goto seg).dec.acc = s.dec.acc := rfl
@[simp] theorem State.goto_dec_nbits (s : State) (seg : Seg) : (s.goto seg).dec.nbits = s.dec.nbits := rfl
@[simp] theorem State.goto_dec_k (s : State) (seg : Seg) : (s.goto seg).dec.k = s.dec.k := rfl
@[simp] theorem State.goto_dec_hcode (s : State) (seg : Seg) : (s.goto seg).dec.hcode = s.dec.hcode := rfl
@[simp] theorem State.goto_dec_hwidth (s : State) (seg : Seg) : (s.goto seg).dec.hwidth = s.dec.hwidth := rfl
@[simp] theorem State.goto_dec_run (s : State) (seg : Seg) : (s.goto seg).dec.run = s.dec.run := rfl
@[simp] theorem State.goto_dec_mag (s : State) (seg : Seg) : (s.goto seg).dec.mag = s.dec.mag := rfl
@[simp] theorem State.goto_dec_amp (s : State) (seg : Seg) : (s.goto seg).dec.amp = s.dec.amp := rfl
@[simp] theorem State.goto_dec_ampn (s : State) (seg : Seg) : (s.goto seg).dec.ampn = s.dec.ampn := rfl
@[simp] theorem State.goto_dec_qt (s : State) (seg : Seg) : (s.goto seg).dec.qt = s.dec.qt := rfl
@[simp] theorem State.goto_dec_dcTables (s : State) (seg : Seg) : (s.goto seg).dec.dcTables = s.dec.dcTables := rfl
@[simp] theorem State.goto_dec_acTables (s : State) (seg : Seg) : (s.goto seg).dec.acTables = s.dec.acTables := rfl
@[simp] theorem State.goto_dec_framePresent (s : State) (seg : Seg) : (s.goto seg).dec.framePresent = s.dec.framePresent := rfl
@[simp] theorem State.goto_dec_precision (s : State) (seg : Seg) : (s.goto seg).dec.precision = s.dec.precision := rfl
@[simp] theorem State.goto_dec_height (s : State) (seg : Seg) : (s.goto seg).dec.height = s.dec.height := rfl
@[simp] theorem State.goto_dec_width (s : State) (seg : Seg) : (s.goto seg).dec.width = s.dec.width := rfl
@[simp] theorem State.goto_dec_nf (s : State) (seg : Seg) : (s.goto seg).dec.nf = s.dec.nf := rfl
@[simp] theorem State.goto_dec_hmax (s : State) (seg : Seg) : (s.goto seg).dec.hmax = s.dec.hmax := rfl
@[simp] theorem State.goto_dec_vmax (s : State) (seg : Seg) : (s.goto seg).dec.vmax = s.dec.vmax := rfl
@[simp] theorem State.goto_dec_mcux (s : State) (seg : Seg) : (s.goto seg).dec.mcux = s.dec.mcux := rfl
@[simp] theorem State.goto_dec_mcuy (s : State) (seg : Seg) : (s.goto seg).dec.mcuy = s.dec.mcuy := rfl
@[simp] theorem State.goto_dec_mcuTotal (s : State) (seg : Seg) : (s.goto seg).dec.mcuTotal = s.dec.mcuTotal := rfl
@[simp] theorem State.goto_dec_comps (s : State) (seg : Seg) : (s.goto seg).dec.comps = s.dec.comps := rfl
@[simp] theorem State.goto_dec_scanPresent (s : State) (seg : Seg) : (s.goto seg).dec.scanPresent = s.dec.scanPresent := rfl
@[simp] theorem State.goto_dec_ns (s : State) (seg : Seg) : (s.goto seg).dec.ns = s.dec.ns := rfl
@[simp] theorem State.goto_dec_order (s : State) (seg : Seg) : (s.goto seg).dec.order = s.dec.order := rfl
@[simp] theorem State.goto_dec_ss (s : State) (seg : Seg) : (s.goto seg).dec.ss = s.dec.ss := rfl
@[simp] theorem State.goto_dec_se (s : State) (seg : Seg) : (s.goto seg).dec.se = s.dec.se := rfl
@[simp] theorem State.goto_dec_ah (s : State) (seg : Seg) : (s.goto seg).dec.ah = s.dec.ah := rfl
@[simp] theorem State.goto_dec_al (s : State) (seg : Seg) : (s.goto seg).dec.al = s.dec.al := rfl
@[simp] theorem State.goto_dec_scanComplete (s : State) (seg : Seg) : (s.goto seg).dec.scanComplete = s.dec.scanComplete := rfl
@[simp] theorem State.goto_dec_scanPos (s : State) (seg : Seg) : (s.goto seg).dec.scanPos = s.dec.scanPos := rfl
@[simp] theorem State.goto_dec_mcu (s : State) (seg : Seg) : (s.goto seg).dec.mcu = s.dec.mcu := rfl
@[simp] theorem State.goto_dec_img (s : State) (seg : Seg) : (s.goto seg).dec.img = s.dec.img := rfl
@[simp] theorem State.goto_dec_density (s : State) (seg : Seg) : (s.goto seg).dec.density = s.dec.density := rfl
@[simp] theorem State.goto_dec_jfifVersion (s : State) (seg : Seg) : (s.goto seg).dec.jfifVersion = s.dec.jfifVersion := rfl
@[simp] theorem State.goto_dec_comment (s : State) (seg : Seg) : (s.goto seg).dec.comment = s.dec.comment := rfl
@[simp] theorem State.goto_dec_error (s : State) (seg : Seg) : (s.goto seg).dec.error = s.dec.error := rfl
@[simp] theorem State.goto_dec_completed (s : State) (seg : Seg) : (s.goto seg).dec.completed = s.dec.completed := rfl
@[simp] theorem State.goto_dec_cancel (s : State) (seg : Seg) : (s.goto seg).dec.cancel = s.dec.cancel := rfl
@[simp] theorem segRetire_dec_seg (len : Nat) (next : Seg) (s : State) : (segRetire len next s).dec.seg = next := rfl
@[simp] theorem segRetire_dec_sub (len : Nat) (next : Seg) (s : State) : (segRetire len next s).dec.sub = s.dec.sub := rfl
@[simp] theorem segRetire_dec_mode (len : Nat) (next : Seg) (s : State) : (segRetire len next s).dec.mode = s.dec.mode := rfl
@[simp] theorem segRetire_dec_sofCode (len : Nat) (next : Seg) (s : State) : (segRetire len next s).dec.sofCode = s.dec.sofCode := rfl
@[simp] theorem segRetire_dec_pos (len : Nat) (next : Seg) (s : State) : (segRetire len next s).dec.pos = s.dec.pos + len := rfl
@[simp] theorem segRetire_dec_avail (len : Nat) (next : Seg) (s : State) : (segRetire len next s).dec.avail = s.dec.avail := rfl
@[simp] theorem segRetire_dec_eos (len : Nat) (next : Seg) (s : State) : (segRetire len next s).dec.eos = s.dec.eos := rfl
@[simp] theorem segRetire_dec_input (len : Nat) (next : Seg) (s : State) : (segRetire len next s).dec.input = s.dec.input := rfl
@[simp] theorem segRetire_dec_acc (len : Nat) (next : Seg) (s : State) : (segRetire len next s).dec.acc = s.dec.acc := rfl
@[simp] theorem segRetire_dec_nbits (len : Nat) (next : Seg) (s : State) : (segRetire len next s).dec.nbits = s.dec.nbits := rfl
@[simp] theorem segRetire_dec_k (len : Nat) (next : Seg) (s : State) : (segRetire len next s).dec.k = s.dec.k := rfl
@[simp] theorem segRetire_dec_hcode (len : Nat) (next : Seg) (s : State) : (segRetire len next s).dec.hcode = s.dec.hcode := rfl
@[simp] theorem segRetire_dec_hwidth (len : Nat) (next : Seg) (s : State) : (segRetire len next s).dec.hwidth = s.dec.hwidth := rfl
@[simp] theorem segRetire_dec_run (len : Nat) (next : Seg) (s : State) : (segRetire len next s).dec.run = s.dec.run := rfl
@[simp] theorem segRetire_dec_mag (len : Nat) (next : Seg) (s : State) : (segRetire len next s).dec.mag = s.dec.mag := rfl
@[simp] theorem segRetire_dec_amp (len : Nat) (next : Seg) (s : State) : (segRetire len next s).dec.amp = s.dec.amp := rfl
@[simp] theorem segRetire_dec_ampn (len : Nat) (next : Seg) (s : State) : (segRetire len next s).dec.ampn = s.dec.ampn := rfl
@[simp] theorem segRetire_dec_qt (len : Nat) (next : Seg) (s : State) : (segRetire len next s).dec.qt = s.dec.qt := rfl
@[simp] theorem segRetire_dec_dcTables (len : Nat) (next : Seg) (s : State) : (segRetire len next s).dec.dcTables = s.dec.dcTables := rfl
@[simp] theorem segRetire_dec_acTables (len : Nat) (next : Seg) (s : State) : (segRetire len next s).dec.acTables = s.dec.acTables := rfl
@[simp] theorem segRetire_dec_framePresent (len : Nat) (next : Seg) (s : State) : (segRetire len next s).dec.framePresent = s.dec.framePresent := rfl
@[simp] theorem segRetire_dec_precision (len : Nat) (next : Seg) (s : State) : (segRetire len next s).dec.precision = s.dec.precision := rfl
@[simp] theorem segRetire_dec_height (len : Nat) (next : Seg) (s : State) : (segRetire len next s).dec.height = s.dec.height := rfl
@[simp] theorem segRetire_dec_width (len : Nat) (next : Seg) (s : State) : (segRetire len next s).dec.width = s.dec.width := rfl
@[simp] theorem segRetire_dec_nf (len : Nat) (next : Seg) (s : State) : (segRetire len next s).dec.nf = s.dec.nf := rfl
@[simp] theorem segRetire_dec_hmax (len : Nat) (next : Seg) (s : State) : (segRetire len next s).dec.hmax = s.dec.hmax := rfl
@[simp] theorem segRetire_dec_vmax (len : Nat) (next : Seg) (s : State) : (segRetire len next s).dec.vmax = s.dec.vmax := rfl
@[simp] theorem segRetire_dec_mcux (len : Nat) (next : Seg) (s : State) : (segRetire len next s).dec.mcux = s.dec.mcux := rfl
@[simp] theorem segRetire_dec_mcuy (len : Nat) (next : Seg) (s : State) : (segRetire len next s).dec.mcuy = s.dec.mcuy := rfl
@[simp] theorem segRetire_dec_mcuTotal (len : Nat) (next : Seg) (s : State) : (segRetire len next s).dec.mcuTotal = s.dec.mcuTotal := rfl
@[simp] theorem segRetire_dec_comps (len : Nat) (next : Seg) (s : State) : (segRetire len next s).dec.comps = s.dec.comps := rfl
@[simp] theorem segRetire_dec_scanPresent (len : Nat) (next : Seg) (s : State) : (segRetire len next s).dec.scanPresent = s.dec.scanPresent := rfl
@[simp] theorem segRetire_dec_ns (len : Nat) (next : Seg) (s : State) : (segRetire len next s).dec.ns = s.dec.ns := rfl
@[simp] theorem segRetire_dec_order (len : Nat) (next : Seg) (s : State) : (segRetire len next s).dec.order = s.dec.order := rfl
@[simp] theorem segRetire_dec_ss (len : Nat) (next : Seg) (s : State) : (segRetire len next s).dec.ss = s.dec.ss := rfl
@[simp] theorem segRetire_dec_se (len : Nat) (next : Seg) (s : State) : (segRetire len next s).dec.se = s.dec.se := rfl
@[simp] theorem segRetire_dec_ah (len : Nat) (next : Seg) (s : State) : (segRetire len next s).dec.ah = s.dec.ah := rfl
@[simp] theorem segRetire_dec_al (len : Nat) (next : Seg) (s : State) : (segRetire len next s).dec.al = s.dec.al := rfl
@[simp] theorem segRetire_dec_scanComplete (len : Nat) (next : Seg) (s : State) : (segRetire len next s).dec.scanComplete = s.dec.scanComplete := rfl
@[simp] theorem segRetire_dec_scanPos (len : Nat) (next : Seg) (s : State) : (segRetire len next s).dec.scanPos = s.dec.scanPos := rfl
@[simp] theorem segRetire_dec_mcu (len : Nat) (next : Seg) (s : State) : (segRetire len next s).dec.mcu = s.dec.mcu := rfl
@[simp] theorem segRetire_dec_img (len : Nat) (next : Seg) (s : State) : (segRetire len next s).dec.img = s.dec.img := rfl
@[simp] theorem segRetire_dec_density (len : Nat) (next : Seg) (s : State) : (segRetire len next s).dec.density = s.dec.density := rfl
@[simp] theorem segRetire_dec_jfifVersion (len : Nat) (next : Seg) (s : State) : (segRetire len next s).dec.jfifVersion = s.dec.jfifVersion := rfl
@[simp] theorem segRetire_dec_comment (len : Nat) (next : Seg) (s : State) : (segRetire len next s).dec.comment = s.dec.comment := rfl
@[simp] theorem segRetire_dec_error (len : Nat) (next : Seg) (s : State) : (segRetire len next s).dec.error = s.dec.error := rfl
@[simp] theorem segRetire_dec_completed (len : Nat) (next : Seg) (s : State) : (segRetire len next s).dec.completed = s.dec.completed := rfl
@[simp] theorem segRetire_dec_cancel (len : Nat) (next : Seg) (s : State) : (segRetire len next s).dec.cancel = s.dec.cancel := rfl

/-! ### Updates of the decoder -/

@[simp] theorem Decoder.setComp_seg (d : Decoder) (j : Nat) (c : Component) : (d.setComp j c).seg = d.seg := rfl
@[simp] theorem Decoder.setComp_sub (d : Decoder) (j : Nat) (c : Component) : (d.setComp j c).sub = d.sub := rfl
@[simp] theorem Decoder.setComp_mode (d : Decoder) (j : Nat) (c : Component) : (d.setComp j c).mode = d.mode := rfl
@[simp] theorem Decoder.setComp_sofCode (d : Decoder) (j : Nat) (c : Component) : (d.setComp j c).sofCode = d.sofCode := rfl
@[simp] theorem Decoder.setComp_pos (d : Decoder) (j : Nat) (c : Component) : (d.setComp j c).pos = d.pos := rfl
@[simp] theorem Decoder.setComp_avail (d : Decoder) (j : Nat) (c : Component) : (d.setComp j c).avail = d.avail := rfl
@[simp] theorem Decoder.setComp_eos (d : Decoder) (j : Nat) (c : Component) : (d.setComp j c).eos = d.eos := rfl
@[simp] theorem Decoder.setComp_input (d : Decoder) (j : Nat) (c : Component) : (d.setComp j c).input = d.input := rfl
@[simp] theorem Decoder.setComp_acc (d : Decoder) (j : Nat) (c : Component) : (d.setComp j c).acc = d.acc := rfl
@[simp] theorem Decoder.setComp_nbits (d : Decoder) (j : Nat) (c : Component) : (d.setComp j c).nbits = d.nbits := rfl
@[simp] theorem Decoder.setComp_k (d : Decoder) (j : Nat) (c : Component) : (d.setComp j c).k = d.k := rfl
@[simp] theorem Decoder.setComp_hcode (d : Decoder) (j : Nat) (c : Component) : (d.setComp j c).hcode = d.hcode := rfl
@[simp] theorem Decoder.setComp_hwidth (d : Decoder) (j : Nat) (c : Component) : (d.setComp j c).hwidth = d.hwidth := rfl
@[simp] theorem Decoder.setComp_run (d : Decoder) (j : Nat) (c : Component) : (d.setComp j c).run = d.run := rfl
@[simp] theorem Decoder.setComp_mag (d : Decoder) (j : Nat) (c : Component) : (d.setComp j c).mag = d.mag := rfl
@[simp] theorem Decoder.setComp_amp (d : Decoder) (j : Nat) (c : Component) : (d.setComp j c).amp = d.amp := rfl
@[simp] theorem Decoder.setComp_ampn (d : Decoder) (j : Nat) (c : Component) : (d.setComp j c).ampn = d.ampn := rfl
@[simp] theorem Decoder.setComp_qt (d : Decoder) (j : Nat) (c : Component) : (d.setComp j c).qt = d.qt := rfl
@[simp] theorem Decoder.setComp_dcTables (d : Decoder) (j : Nat) (c : Component) : (d.setComp j c).dcTables = d.dcTables := rfl
@[simp] theorem Decoder.setComp_acTables (d : Decoder) (j : Nat) (c : Component) : (d.setComp j c).acTables = d.acTables := rfl
@[simp] theorem Decoder.setComp_framePresent (d : Decoder) (j : Nat) (c : Component) : (d.setComp j c).framePresent = d.framePresent := rfl
@[simp] theorem Decoder.setComp_precision (d : Decoder) (j : Nat) (c : Component) : (d.setComp j c).precision = d.precision := rfl
@[simp] theorem Decoder.setComp_height (d : Decoder) (j : Nat) (c : Component) : (d.setComp j c).height = d.height := rfl
@[simp] theorem Decoder.setComp_width (d : Decoder) (j : Nat) (c : Component) : (d.setComp j c).width = d.width := rfl
@[simp] theorem Decoder.setComp_nf (d : Decoder) (j : Nat) (c : Component) : (d.setComp j c).nf = d.nf := rfl
@[simp] theorem Decoder.setComp_hmax (d : Decoder) (j : Nat) (c : Component) : (d.setComp j c).hmax = d.hmax := rfl
@[simp] theorem Decoder.setComp_vmax (d : Decoder) (j : Nat) (c : Component) : (d.setComp j c).vmax = d.vmax := rfl
@[simp] theorem Decoder.setComp_mcux (d : Decoder) (j : Nat) (c : Component) : (d.setComp j c).mcux = d.mcux := rfl
@[simp] theorem Decoder.setComp_mcuy (d : Decoder) (j : Nat) (c : Component) : (d.setComp j c).mcuy = d.mcuy := rfl
@[simp] theorem Decoder.setComp_mcuTotal (d : Decoder) (j : Nat) (c : Component) : (d.setComp j c).mcuTotal = d.mcuTotal := rfl
@[simp] theorem Decoder.setComp_comps (d : Decoder) (j : Nat) (c : Component) : (d.setComp j c).comps = d.comps.set j c := rfl
@[simp] theorem Decoder.setComp_scanPresent (d : Decoder) (j : Nat) (c : Component) : (d.setComp j c).scanPresent = d.scanPresent := rfl
@[simp] theorem Decoder.setComp_ns (d : Decoder) (j : Nat) (c : Component) : (d.setComp j c).ns = d.ns := rfl
@[simp] theorem Decoder.setComp_order (d : Decoder) (j : Nat) (c : Component) : (d.setComp j c).order = d.order := rfl
@[simp] theorem Decoder.setComp_ss (d : Decoder) (j : Nat) (c : Component) : (d.setComp j c).ss = d.ss := rfl
@[simp] theorem Decoder.setComp_se (d : Decoder) (j : Nat) (c : Component) : (d.setComp j c).se = d.se := rfl
@[simp] theorem Decoder.setComp_ah (d : Decoder) (j : Nat) (c : Component) : (d.setComp j c).ah = d.ah := rfl
@[simp] theorem Decoder.setComp_al (d : Decoder) (j : Nat) (c : Component) : (d.setComp j c).al = d.al := rfl
@[simp] theorem Decoder.setComp_scanComplete (d : Decoder) (j : Nat) (c : Component) : (d.setComp j c).scanComplete = d.scanComplete := rfl
@[simp] theorem Decoder.setComp_scanPos (d : Decoder) (j : Nat) (c : Component) : (d.setComp j c).scanPos = d.scanPos := rfl
@[simp] theorem Decoder.setComp_mcu (d : Decoder) (j : Nat) (c : Component) : (d.setComp j c).mcu = d.mcu := rfl
@[simp] theorem Decoder.setComp_img (d : Decoder) (j : Nat) (c : Component) : (d.setComp j c).img = d.img := rfl
@[simp] theorem Decoder.setComp_density (d : Decoder) (j : Nat) (c : Component) : (d.setComp j c).density = d.density := rfl
@[simp] theorem Decoder.setComp_jfifVersion (d : Decoder) (j : Nat) (c : Component) : (d.setComp j c).jfifVersion = d.jfifVersion := rfl
@[simp] theorem Decoder.setComp_comment (d : Decoder) (j : Nat) (c : Component) : (d.setComp j c).comment = d.comment := rfl
@[simp] theorem Decoder.setComp_error (d : Decoder) (j : Nat) (c : Component) : (d.setComp j c).error = d.error := rfl
@[simp] theorem Decoder.setComp_completed (d : Decoder) (j : Nat) (c : Component) : (d.setComp j c).completed = d.completed := rfl
@[simp] theorem Decoder.setComp_cancel (d : Decoder) (j : Nat) (c : Component) : (d.setComp j c).cancel = d.cancel := rfl
@[simp] theorem Decoder.withScratch_seg (d : Decoder) (j : Nat) (c : Component) (k : Nat) : (d.withScratch j c k).seg = d.seg := rfl
@[simp] theorem Decoder.withScratch_sub (d : Decoder) (j : Nat) (c : Component) (k : Nat) : (d.withScratch j c k).sub = d.sub := rfl
@[simp] theorem Decoder.withScratch_mode (d : Decoder) (j : Nat) (c : Component) (k : Nat) : (d.withScratch j c k).mode = d.mode := rfl
@[simp] theorem Decoder.withScratch_sofCode (d : Decoder) (j : Nat) (c : Component) (k : Nat) : (d.withScratch j c k).sofCode = d.sofCode := rfl
@[simp] theorem Decoder.withScratch_pos (d : Decoder) (j : Nat) (c : Component) (k : Nat) : (d.withScratch j c k).pos = d.pos := rfl
@[simp] theorem Decoder.withScratch_avail (d : Decoder) (j : Nat) (c : Component) (k : Nat) : (d.withScratch j c k).avail = d.avail := rfl
@[simp] theorem Decoder.withScratch_eos (d : Decoder) (j : Nat) (c : Component) (k : Nat) : (d.withScratch j c k).eos = d.eos := rfl
@[simp] theorem Decoder.withScratch_input (d : Decoder) (j : Nat) (c : Component) (k : Nat) : (d.withScratch j c k).input = d.input := rfl
@[simp] theorem Decoder.withScratch_acc (d : Decoder) (j : Nat) (c : Component) (k : Nat) : (d.withScratch j c k).acc = d.acc := rfl
@[simp] theorem Decoder.withScratch_nbits (d : Decoder) (j : Nat) (c : Component) (k : Nat) : (d.withScratch j c k).nbits = d.nbits := rfl
@[simp] theorem Decoder.withScratch_k (d : Decoder) (j : Nat) (c : Component) (k : Nat) : (d.withScratch j c k).k = k := rfl
@[simp] theorem Decoder.withScratch_hcode (d : Decoder) (j : Nat) (c : Component) (k : Nat) : (d.withScratch j c k).hcode = d.hcode := rfl
@[simp] theorem Decoder.withScratch_hwidth (d : Decoder) (j : Nat) (c : Component) (k : Nat) : (d.withScratch j c k).hwidth = d.hwidth := rfl
@[simp] theorem Decoder.withScratch_run (d : Decoder) (j : Nat) (c : Component) (k : Nat) : (d.withScratch j c k).run = d.run := rfl
@[simp] theorem Decoder.withScratch_mag (d : Decoder) (j : Nat) (c : Component) (k : Nat) : (d.withScratch j c k).mag = d.mag := rfl
@[simp] theorem Decoder.withScratch_amp (d : Decoder) (j : Nat) (c : Component) (k : Nat) : (d.withScratch j c k).amp = d.amp := rfl
@[simp] theorem Decoder.withScratch_ampn (d : Decoder) (j : Nat) (c : Component) (k : Nat) : (d.withScratch j c k).ampn = d.ampn := rfl
@[simp] theorem Decoder.withScratch_qt (d : Decoder) (j : Nat) (c : Component) (k : Nat) : (d.withScratch j c k).qt = d.qt := rfl
@[simp] theorem Decoder.withScratch_dcTables (d : Decoder) (j : Nat) (c : Component) (k : Nat) : (d.withScratch j c k).dcTables = d.dcTables := rfl
@[simp] theorem Decoder.withScratch_acTables (d : Decoder) (j : Nat) (c : Component) (k : Nat) : (d.withScratch j c k).acTables = d.acTables := rfl
@[simp] theorem Decoder.withScratch_framePresent (d : Decoder) (j : Nat) (c : Component) (k : Nat) : (d.withScratch j c k).framePresent = d.framePresent := rfl
@[simp] theorem Decoder.withScratch_precision (d : Decoder) (j : Nat) (c : Component) (k : Nat) : (d.withScratch j c k).precision = d.precision := rfl
@[simp] theorem Decoder.withScratch_height (d : Decoder) (j : Nat) (c : Component) (k : Nat) : (d.withScratch j c k).height = d.height := rfl
@[simp] theorem Decoder.withScratch_width (d : Decoder) (j : Nat) (c : Component) (k : Nat) : (d.withScratch j c k).width = d.width := rfl
@[simp] theorem Decoder.withScratch_nf (d : Decoder) (j : Nat) (c : Component) (k : Nat) : (d.withScratch j c k).nf = d.nf := rfl
@[simp] theorem Decoder.withScratch_hmax (d : Decoder) (j : Nat) (c : Component) (k : Nat) : (d.withScratch j c k).hmax = d.hmax := rfl
@[simp] theorem Decoder.withScratch_vmax (d : Decoder) (j : Nat) (c : Component) (k : Nat) : (d.withScratch j c k).vmax = d.vmax := rfl
@[simp] theorem Decoder.withScratch_mcux (d : Decoder) (j : Nat) (c : Component) (k : Nat) : (d.withScratch j c k).mcux = d.mcux := rfl
@[simp] theorem Decoder.withScratch_mcuy (d : Decoder) (j : Nat) (c : Component) (k : Nat) : (d.withScratch j c k).mcuy = d.mcuy := rfl
@[simp] theorem Decoder.withScratch_mcuTotal (d : Decoder) (j : Nat) (c : Component) (k : Nat) : (d.withScratch j c k).mcuTotal = d.mcuTotal := rfl
@[simp] theorem Decoder.withScratch_comps (d : Decoder) (j : Nat) (c : Component) (k : Nat) : (d.withScratch j c k).comps = d.comps.set j c := rfl
@[simp] theorem Decoder.withScratch_scanPresent (d : Decoder) (j : Nat) (c : Component) (k : Nat) : (d.withScratch j c k).scanPresent = d.scanPresent := rfl
@[simp] theorem Decoder.withScratch_ns (d : Decoder) (j : Nat) (c : Component) (k : Nat) : (d.withScratch j c k).ns = d.ns := rfl
@[simp] theorem Decoder.withScratch_order (d : Decoder) (j : Nat) (c : Component) (k : Nat) : (d.withScratch j c k).order = d.order := rfl
@[simp] theorem Decoder.withScratch_ss (d : Decoder) (j : Nat) (c : Component) (k : Nat) : (d.withScratch j c k).ss = d.ss := rfl
@[simp] theorem Decoder.withScratch_se (d : Decoder) (j : Nat) (c : Component) (k : Nat) : (d.withScratch j c k).se = d.se := rfl
@[simp] theorem Decoder.withScratch_ah (d : Decoder) (j : Nat) (c : Component) (k : Nat) : (d.withScratch j c k).ah = d.ah := rfl
@[simp] theorem Decoder.withScratch_al (d : Decoder) (j : Nat) (c : Component) (k : Nat) : (d.withScratch j c k).al = d.al := rfl
@[simp] theorem Decoder.withScratch_scanComplete (d : Decoder) (j : Nat) (c : Component) (k : Nat) : (d.withScratch j c k).scanComplete = d.scanComplete := rfl
@[simp] theorem Decoder.withScratch_scanPos (d : Decoder) (j : Nat) (c : Component) (k : Nat) : (d.withScratch j c k).scanPos = d.scanPos := rfl
@[simp] theorem Decoder.withScratch_mcu (d : Decoder) (j : Nat) (c : Component) (k : Nat) : (d.withScratch j c k).mcu = d.mcu := rfl
@[simp] theorem Decoder.withScratch_img (d : Decoder) (j : Nat) (c : Component) (k : Nat) : (d.withScratch j c k).img = d.img := rfl
@[simp] theorem Decoder.withScratch_density (d : Decoder) (j : Nat) (c : Component) (k : Nat) : (d.withScratch j c k).density = d.density := rfl
@[simp] theorem Decoder.withScratch_jfifVersion (d : Decoder) (j : Nat) (c : Component) (k : Nat) : (d.withScratch j c k).jfifVersion = d.jfifVersion := rfl
@[simp] theorem Decoder.withScratch_comment (d : Decoder) (j : Nat) (c : Component) (k : Nat) : (d.withScratch j c k).comment = d.comment := rfl
@[simp] theorem Decoder.withScratch_error (d : Decoder) (j : Nat) (c : Component) (k : Nat) : (d.withScratch j c k).error = d.error := rfl
@[simp] theorem Decoder.withScratch_completed (d : Decoder) (j : Nat) (c : Component) (k : Nat) : (d.withScratch j c k).completed = d.completed := rfl
@[simp] theorem Decoder.withScratch_cancel (d : Decoder) (j : Nat) (c : Component) (k : Nat) : (d.withScratch j c k).cancel = d.cancel := rfl
@[simp] theorem Decoder.scanEnd_seg (d : Decoder) : d.scanEnd.seg = .marker := rfl
@[simp] theorem Decoder.scanEnd_sub (d : Decoder) : d.scanEnd.sub = d.sub := rfl
@[simp] theorem Decoder.scanEnd_mode (d : Decoder) : d.scanEnd.mode = d.mode := rfl
@[simp] theorem Decoder.scanEnd_sofCode (d : Decoder) : d.scanEnd.sofCode = d.sofCode := rfl
@[simp] theorem Decoder.scanEnd_pos (d : Decoder) : d.scanEnd.pos = d.pos := rfl
@[simp] theorem Decoder.scanEnd_avail (d : Decoder) : d.scanEnd.avail = d.avail := rfl
@[simp] theorem Decoder.scanEnd_eos (d : Decoder) : d.scanEnd.eos = d.eos := rfl
@[simp] theorem Decoder.scanEnd_input (d : Decoder) : d.scanEnd.input = d.input := rfl
@[simp] theorem Decoder.scanEnd_acc (d : Decoder) : d.scanEnd.acc = d.acc := rfl
@[simp] theorem Decoder.scanEnd_nbits (d : Decoder) : d.scanEnd.nbits = 0 := rfl
@[simp] theorem Decoder.scanEnd_k (d : Decoder) : d.scanEnd.k = d.k := rfl
@[simp] theorem Decoder.scanEnd_hcode (d : Decoder) : d.scanEnd.hcode = d.hcode := rfl
@[simp] theorem Decoder.scanEnd_hwidth (d : Decoder) : d.scanEnd.hwidth = d.hwidth := rfl
@[simp] theorem Decoder.scanEnd_run (d : Decoder) : d.scanEnd.run = d.run := rfl
@[simp] theorem Decoder.scanEnd_mag (d : Decoder) : d.scanEnd.mag = d.mag := rfl
@[simp] theorem Decoder.scanEnd_amp (d : Decoder) : d.scanEnd.amp = d.amp := rfl
@[simp] theorem Decoder.scanEnd_ampn (d : Decoder) : d.scanEnd.ampn = d.ampn := rfl
@[simp] theorem Decoder.scanEnd_qt (d : Decoder) : d.scanEnd.qt = d.qt := rfl
@[simp] theorem Decoder.scanEnd_dcTables (d : Decoder) : d.scanEnd.dcTables = d.dcTables := rfl
@[simp] theorem Decoder.scanEnd_acTables (d : Decoder) : d.scanEnd.acTables = d.acTables := rfl
@[simp] theorem Decoder.scanEnd_framePresent (d : Decoder) : d.scanEnd.framePresent = d.framePresent := rfl
@[simp] theorem Decoder.scanEnd_precision (d : Decoder) : d.scanEnd.precision = d.precision := rfl
@[simp] theorem Decoder.scanEnd_height (d : Decoder) : d.scanEnd.height = d.height := rfl
@[simp] theorem Decoder.scanEnd_width (d : Decoder) : d.scanEnd.width = d.width := rfl
@[simp] theorem Decoder.scanEnd_nf (d : Decoder) : d.scanEnd.nf = d.nf := rfl
@[simp] theorem Decoder.scanEnd_hmax (d : Decoder) : d.scanEnd.hmax = d.hmax := rfl
@[simp] theorem Decoder.scanEnd_vmax (d : Decoder) : d.scanEnd.vmax = d.vmax := rfl
@[simp] theorem Decoder.scanEnd_mcux (d : Decoder) : d.scanEnd.mcux = d.mcux := rfl
@[simp] theorem Decoder.scanEnd_mcuy (d : Decoder) : d.scanEnd.mcuy = d.mcuy := rfl
@[simp] theorem Decoder.scanEnd_mcuTotal (d : Decoder) : d.scanEnd.mcuTotal = d.mcuTotal := rfl
@[simp] theorem Decoder.scanEnd_comps (d : Decoder) : d.scanEnd.comps = d.comps := rfl
@[simp] theorem Decoder.scanEnd_scanPresent (d : Decoder) : d.scanEnd.scanPresent = d.scanPresent := rfl
@[simp] theorem Decoder.scanEnd_ns (d : Decoder) : d.scanEnd.ns = d.ns := rfl
@[simp] theorem Decoder.scanEnd_order (d : Decoder) : d.scanEnd.order = d.order := rfl
@[simp] theorem Decoder.scanEnd_ss (d : Decoder) : d.scanEnd.ss = d.ss := rfl
@[simp] theorem Decoder.scanEnd_se (d : Decoder) : d.scanEnd.se = d.se := rfl
@[simp] theorem Decoder.scanEnd_ah (d : Decoder) : d.scanEnd.ah = d.ah := rfl
@[simp] theorem Decoder.scanEnd_al (d : Decoder) : d.scanEnd.al = d.al := rfl
@[simp] theorem Decoder.scanEnd_scanComplete (d : Decoder) : d.scanEnd.scanComplete = true := rfl
@[simp] theorem Decoder.scanEnd_scanPos (d : Decoder) : d.scanEnd.scanPos = d.scanPos := rfl
@[simp] theorem Decoder.scanEnd_mcu (d : Decoder) : d.scanEnd.mcu = d.mcu := rfl
@[simp] theorem Decoder.scanEnd_img (d : Decoder) : d.scanEnd.img = d.img := rfl
@[simp] theorem Decoder.scanEnd_density (d : Decoder) : d.scanEnd.density = d.density := rfl
@[simp] theorem Decoder.scanEnd_jfifVersion (d : Decoder) : d.scanEnd.jfifVersion = d.jfifVersion := rfl
@[simp] theorem Decoder.scanEnd_comment (d : Decoder) : d.scanEnd.comment = d.comment := rfl
@[simp] theorem Decoder.scanEnd_error (d : Decoder) : d.scanEnd.error = d.error := rfl
@[simp] theorem Decoder.scanEnd_completed (d : Decoder) : d.scanEnd.completed = d.completed := rfl
@[simp] theorem Decoder.scanEnd_cancel (d : Decoder) : d.scanEnd.cancel = d.cancel := rfl
@[simp] theorem Decoder.supply_seg (d : Decoder) (bs : List Byte) (e : Bool) : (d.supply bs e).seg = d.seg := rfl
@[simp] theorem Decoder.supply_sub (d : Decoder) (bs : List Byte) (e : Bool) : (d.supply bs e).sub = d.sub := rfl
@[simp] theorem Decoder.supply_mode (d : Decoder) (bs : List Byte) (e : Bool) : (d.supply bs e).mode = d.mode := rfl
@[simp] theorem Decoder.supply_sofCode (d : Decoder) (bs : List Byte) (e : Bool) : (d.supply bs e).sofCode = d.sofCode := rfl
@[simp] theorem Decoder.supply_pos (d : Decoder) (bs : List Byte) (e : Bool) : (d.supply bs e).pos = d.pos := rfl
@[simp] theorem Decoder.supply_avail (d : Decoder) (bs : List Byte) (e : Bool) : (d.supply bs e).avail = d.avail + bs.length := rfl
@[simp] theorem Decoder.supply_eos (d : Decoder) (bs : List Byte) (e : Bool) : (d.supply bs e).eos = (d.eos || e) := rfl
@[simp] theorem Decoder.supply_input (d : Decoder) (bs : List Byte) (e : Bool) : (d.supply bs e).input = Memory.writeBytes d.input d.avail bs := rfl
@[simp] theorem Decoder.supply_acc (d : Decoder) (bs : List Byte) (e : Bool) : (d.supply bs e).acc = d.acc := rfl
@[simp] theorem Decoder.supply_nbits (d : Decoder) (bs : List Byte) (e : Bool) : (d.supply bs e).nbits = d.nbits := rfl
@[simp] theorem Decoder.supply_k (d : Decoder) (bs : List Byte) (e : Bool) : (d.supply bs e).k = d.k := rfl
@[simp] theorem Decoder.supply_hcode (d : Decoder) (bs : List Byte) (e : Bool) : (d.supply bs e).hcode = d.hcode := rfl
@[simp] theorem Decoder.supply_hwidth (d : Decoder) (bs : List Byte) (e : Bool) : (d.supply bs e).hwidth = d.hwidth := rfl
@[simp] theorem Decoder.supply_run (d : Decoder) (bs : List Byte) (e : Bool) : (d.supply bs e).run = d.run := rfl
@[simp] theorem Decoder.supply_mag (d : Decoder) (bs : List Byte) (e : Bool) : (d.supply bs e).mag = d.mag := rfl
@[simp] theorem Decoder.supply_amp (d : Decoder) (bs : List Byte) (e : Bool) : (d.supply bs e).amp = d.amp := rfl
@[simp] theorem Decoder.supply_ampn (d : Decoder) (bs : List Byte) (e : Bool) : (d.supply bs e).ampn = d.ampn := rfl
@[simp] theorem Decoder.supply_qt (d : Decoder) (bs : List Byte) (e : Bool) : (d.supply bs e).qt = d.qt := rfl
@[simp] theorem Decoder.supply_dcTables (d : Decoder) (bs : List Byte) (e : Bool) : (d.supply bs e).dcTables = d.dcTables := rfl
@[simp] theorem Decoder.supply_acTables (d : Decoder) (bs : List Byte) (e : Bool) : (d.supply bs e).acTables = d.acTables := rfl
@[simp] theorem Decoder.supply_framePresent (d : Decoder) (bs : List Byte) (e : Bool) : (d.supply bs e).framePresent = d.framePresent := rfl
@[simp] theorem Decoder.supply_precision (d : Decoder) (bs : List Byte) (e : Bool) : (d.supply bs e).precision = d.precision := rfl
@[simp] theorem Decoder.supply_height (d : Decoder) (bs : List Byte) (e : Bool) : (d.supply bs e).height = d.height := rfl
@[simp] theorem Decoder.supply_width (d : Decoder) (bs : List Byte) (e : Bool) : (d.supply bs e).width = d.width := rfl
@[simp] theorem Decoder.supply_nf (d : Decoder) (bs : List Byte) (e : Bool) : (d.supply bs e).nf = d.nf := rfl
@[simp] theorem Decoder.supply_hmax (d : Decoder) (bs : List Byte) (e : Bool) : (d.supply bs e).hmax = d.hmax := rfl
@[simp] theorem Decoder.supply_vmax (d : Decoder) (bs : List Byte) (e : Bool) : (d.supply bs e).vmax = d.vmax := rfl
@[simp] theorem Decoder.supply_mcux (d : Decoder) (bs : List Byte) (e : Bool) : (d.supply bs e).mcux = d.mcux := rfl
@[simp] theorem Decoder.supply_mcuy (d : Decoder) (bs : List Byte) (e : Bool) : (d.supply bs e).mcuy = d.mcuy := rfl
@[simp] theorem Decoder.supply_mcuTotal (d : Decoder) (bs : List Byte) (e : Bool) : (d.supply bs e).mcuTotal = d.mcuTotal := rfl
@[simp] theorem Decoder.supply_comps (d : Decoder) (bs : List Byte) (e : Bool) : (d.supply bs e).comps = d.comps := rfl
@[simp] theorem Decoder.supply_scanPresent (d : Decoder) (bs : List Byte) (e : Bool) : (d.supply bs e).scanPresent = d.scanPresent := rfl
@[simp] theorem Decoder.supply_ns (d : Decoder) (bs : List Byte) (e : Bool) : (d.supply bs e).ns = d.ns := rfl
@[simp] theorem Decoder.supply_order (d : Decoder) (bs : List Byte) (e : Bool) : (d.supply bs e).order = d.order := rfl
@[simp] theorem Decoder.supply_ss (d : Decoder) (bs : List Byte) (e : Bool) : (d.supply bs e).ss = d.ss := rfl
@[simp] theorem Decoder.supply_se (d : Decoder) (bs : List Byte) (e : Bool) : (d.supply bs e).se = d.se := rfl
@[simp] theorem Decoder.supply_ah (d : Decoder) (bs : List Byte) (e : Bool) : (d.supply bs e).ah = d.ah := rfl
@[simp] theorem Decoder.supply_al (d : Decoder) (bs : List Byte) (e : Bool) : (d.supply bs e).al = d.al := rfl
@[simp] theorem Decoder.supply_scanComplete (d : Decoder) (bs : List Byte) (e : Bool) : (d.supply bs e).scanComplete = d.scanComplete := rfl
@[simp] theorem Decoder.supply_scanPos (d : Decoder) (bs : List Byte) (e : Bool) : (d.supply bs e).scanPos = d.scanPos := rfl
@[simp] theorem Decoder.supply_mcu (d : Decoder) (bs : List Byte) (e : Bool) : (d.supply bs e).mcu = d.mcu := rfl
@[simp] theorem Decoder.supply_img (d : Decoder) (bs : List Byte) (e : Bool) : (d.supply bs e).img = d.img := rfl
@[simp] theorem Decoder.supply_density (d : Decoder) (bs : List Byte) (e : Bool) : (d.supply bs e).density = d.density := rfl
@[simp] theorem Decoder.supply_jfifVersion (d : Decoder) (bs : List Byte) (e : Bool) : (d.supply bs e).jfifVersion = d.jfifVersion := rfl
@[simp] theorem Decoder.supply_comment (d : Decoder) (bs : List Byte) (e : Bool) : (d.supply bs e).comment = d.comment := rfl
@[simp] theorem Decoder.supply_error (d : Decoder) (bs : List Byte) (e : Bool) : (d.supply bs e).error = d.error := rfl
@[simp] theorem Decoder.supply_completed (d : Decoder) (bs : List Byte) (e : Bool) : (d.supply bs e).completed = d.completed := rfl
@[simp] theorem Decoder.supply_cancel (d : Decoder) (bs : List Byte) (e : Bool) : (d.supply bs e).cancel = d.cancel := rfl

end Sys2Proof.Machine
end

