-- ==== Sys2Proof/Laws/Ops.lean ====
section
/-! SUPPORT. One lemma per shared operation that says everything it can do; later proofs cite these and do not unfold the operations. -/

namespace Sys2Proof.Machine

/-- Every next state of an outcome meets `P`; a fault or a refusal has none. -/
def Ends (P : State → Prop) (o : Host.Outcome State Fault Refusal) : Prop := ∀ t, o = .next t → P t

@[simp] theorem ends_next (P : State → Prop) (t : State) : Ends P (.next t) ↔ P t :=
  ⟨fun h => h t rfl, fun h u hu => by cases hu; exact h⟩

@[simp] theorem ends_fault (P : State → Prop) (f : Fault) : Ends P (.fault f) := fun _ h => by cases h

@[simp] theorem ends_refused (P : State → Prop) (r : Refusal) : Ends P (.refused r) := fun _ h => by cases h

theorem Ends.mono {P Q : State → Prop} {o : Host.Outcome State Fault Refusal} (h : Ends P o) (hpq : ∀ t, P t → Q t) : Ends Q o :=
  fun t ht => hpq t (h t ht)

/-! ### Completion, errors, holds -/

theorem signalCompletion_eq (x : Completion) (s : State) :
    signalCompletion x s =
      { s with
        dec := { s.dec with completed := true }
        host := { s.host with events := if s.dec.completed = true then s.host.events else s.host.events ++ [x] } } := by
  unfold signalCompletion
  split <;> rename_i h
  · rw [← h]
  · rfl

theorem errorEntry_eq (e : Err) (s : State) :
    errorEntry e s =
      { s with
        dec := { s.dec with error := some e, seg := .error, completed := true }
        host := { s.host with events := if s.dec.completed = true then s.host.events else s.host.events ++ [.error e] } } := by
  rw [errorEntry, signalCompletion_eq]
  rfl

@[simp] theorem ends_raise (P : State → Prop) (e : Err) (s : State) : Ends P (raise e s) ↔ P (errorEntry e s) := by
  simp [raise]

theorem ends_needMore {P : State → Prop} {s : State} (hold : P (feedReturn s)) (incomplete : P (errorEntry .e37 s)) :
    Ends P (needMore s) := by
  unfold needMore
  split <;> simpa

/-! ### Segments -/

theorem segFetch_ok {d : Decoder} {len : Nat} {p : List Byte} : segFetch d = .ok len p ↔ len = p.length + 2 ∧ segmentAt d p := by
  unfold segFetch segmentAt
  constructor
  · intro h
    split at h
    · cases h
    · split at h
      · cases h
      · split at h
        · cases h
        · split at h
          · cases h
          · split at h
            · cases h
            · rename_i hr
              cases h
              have hl := Memory.readBytes_length hr
              have : p.length + 2 = len := by omega
              subst this
              refine ⟨rfl, by omega, by assumption, ?_⟩
              simpa using hr
  · rintro ⟨rfl, ha, hb, hr⟩
    rw [if_neg (by omega)]
    simp only [hb]
    rw [if_neg (by omega), if_neg (by omega)]
    simp [hr]

theorem segFetch_hold {d : Decoder} :
    segFetch d = .hold ↔
      d.avail < d.pos + 2 ∨ ∃ len, Memory.be16 d.input d.pos = some len ∧ 2 ≤ len ∧ d.avail < d.pos + len := by
  unfold segFetch
  constructor
  · intro h
    split at h
    · exact .inl (by assumption)
    · split at h
      · cases h
      · split at h
        · cases h
        · split at h
          · exact .inr ⟨_, by assumption, by omega, by assumption⟩
          · split at h <;> cases h
  · rintro (h | ⟨len, hb, hl, h⟩)
    · rw [if_pos h]
    · split
      · rfl
      · simp only [hb]
        rw [if_neg (by omega), if_pos h]

theorem segFetch_badLength {d : Decoder} :
    segFetch d = .badLength ↔ d.pos + 2 ≤ d.avail ∧ ∃ len, Memory.be16 d.input d.pos = some len ∧ len < 2 := by
  unfold segFetch
  constructor
  · intro h
    split at h
    · cases h
    · split at h
      · cases h
      · split at h
        · exact ⟨by omega, _, by assumption, by assumption⟩
        · split at h
          · cases h
          · split at h <;> cases h
  · rintro ⟨ha, len, hb, hl⟩
    rw [if_neg (by omega)]
    simp only [hb]
    rw [if_pos hl]

theorem withSegment_ok {s : State} {p : List Byte} (h : segmentAt s.dec p)
    (body : Nat → List Byte → Host.Outcome State Fault Refusal) : withSegment s body = body (p.length + 2) p := by
  simp [withSegment, segFetch_ok.2 ⟨rfl, h⟩]

theorem ends_withSegment {P : State → Prop} {s : State} {body : Nat → List Byte → Host.Outcome State Fault Refusal}
    (ok : ∀ p, segmentAt s.dec p → Ends P (body (p.length + 2) p)) (hold : Ends P (needMore s)) (bad : P (errorEntry .e3 s)) :
    Ends P (withSegment s body) := by
  unfold withSegment
  split
  · rename_i h
    obtain ⟨rfl, hp⟩ := segFetch_ok.1 h
    exact ok _ hp
  · exact hold
  · simpa
  · simp

theorem ends_inHandler {P : State → Prop} {seg : Seg} {s : State} {a b : Host.Outcome State Fault Refusal}
    (handler : s.dec.seg = seg → Ends P a) (marker : s.dec.seg ≠ seg → Ends P b) : Ends P (inHandler seg s a b) := by
  unfold inHandler
  split
  · exact handler (by assumption)
  · exact marker (by assumption)

/-! ### The bit reader -/

/-- How a bit is obtained (42_entropy R125): from the accumulator, from the next byte, or from a stuffed pair. -/
theorem readBit_bit {d d' : Decoder} {b : Bool} (h : readBit d = .bit b d') :
    (d.nbits ≠ 0 ∧ b = d.acc.getLsbD (d.nbits - 1) ∧ d' = { d with nbits := d.nbits - 1 })
      ∨ (d.nbits = 0 ∧ ∃ v, Memory.read d.input d.pos = some v ∧ b = v.getLsbD 7
          ∧ ((v ≠ 0xFF ∧ d.pos + 1 ≤ d.avail ∧ d' = { d with pos := d.pos + 1, acc := v, nbits := 7 })
            ∨ (v = 0xFF ∧ d.pos + 2 ≤ d.avail ∧ Memory.read d.input (d.pos + 1) = some 0
              ∧ d' = { d with pos := d.pos + 2, acc := v, nbits := 7 }))) := by
  unfold readBit at h
  split at h
  · rename_i hn
    injection h with h1 h2
    exact .inl ⟨hn, h1.symm, h2.symm⟩
  · split at h
    · cases h
    · split at h
      · cases h
      · rename_i hn ha _ v hv
        split at h
        · split at h
          · cases h
          · split at h
            · cases h
            · split at h
              · rename_i hz
                injection h with h1 h2
                exact .inr ⟨by omega, v, hv, h1.symm, .inr ⟨by assumption, by omega, by simp_all, h2.symm⟩⟩
              · cases h
        · injection h with h1 h2
          exact .inr ⟨by omega, v, hv, h1.symm, .inl ⟨by assumption, by omega, h2.symm⟩⟩

theorem readBit_markerSeen {d d' : Decoder} (h : readBit d = .markerSeen d') :
    d.nbits = 0 ∧ d.pos + 2 ≤ d.avail ∧ Memory.read d.input d.pos = some 0xFF
      ∧ (∃ v, Memory.read d.input (d.pos + 1) = some v ∧ v ≠ 0) ∧ d' = { d with seg := .marker } := by
  unfold readBit at h
  split at h
  · cases h
  · split at h
    · cases h
    · split at h
      · cases h
      · split at h
        · split at h
          · cases h
          · split at h
            · cases h
            · split at h
              · cases h
              · rename_i hz
                injection h with h1
                exact ⟨by omega, by omega, by simp_all, ⟨_, by assumption, hz⟩, h1.symm⟩
        · cases h

theorem readBit_hold {d : Decoder} :
    readBit d = .hold ↔ d.nbits = 0 ∧ (d.avail ≤ d.pos ∨ Memory.read d.input d.pos = some 0xFF ∧ d.avail = d.pos + 1) := by
  unfold readBit
  constructor
  · intro h
    split at h
    · cases h
    · split at h
      · exact ⟨by omega, .inl (by omega)⟩
      · split at h
        · cases h
        · split at h
          · split at h
            · exact ⟨by omega, .inr ⟨by simp_all, by omega⟩⟩
            · split at h
              · cases h
              · split at h <;> cases h
          · cases h
  · rintro ⟨hn, h⟩
    rw [if_neg (by omega)]
    rcases h with h | ⟨hr, h⟩
    · rw [if_pos (by omega)]
    · rw [if_neg (by omega)]
      simp only [hr]
      rw [if_pos True.intro, if_pos (by omega)]

theorem ends_withBit {P : State → Prop} {s : State} {body : Bool → State → Host.Outcome State Fault Refusal}
    (bit : ∀ b d, readBit s.dec = .bit b d → Ends P (body b (s.withDec d)))
    (marker : ∀ d, readBit s.dec = .markerSeen d → P (s.withDec d)) (hold : Ends P (needMore s)) :
    Ends P (withBit s body) := by
  unfold withBit
  split
  · exact bit _ _ (by assumption)
  · simpa using marker _ (by assumption)
  · exact hold
  · simp

/-! ### Continuations -/

theorem ends_andThen {P : State → Prop} {o : Host.Outcome State Fault Refusal} {f : State → Host.Outcome State Fault Refusal}
    (h : Ends (fun t => Ends P (f t)) o) : Ends P (andThen o f) := by
  cases o with
  | next t => exact h t rfl
  | fault r => simp [andThen]
  | refused r => simp [andThen]

end Sys2Proof.Machine
end

