-- ==== Sys2Proof/Laws/PerInstr.lean ====
section
/-! SUPPORT. Per instruction: the decoder's map of the instruction's kind sends its code byte back to it
(30_encoding R71, R83, R84). -/

namespace Sys2Proof.Laws.RoundTrip

/-- The instruction a code byte or symbol value stands for, by kind. -/
def read : UnitKind → Byte → Instr
  | .marker, c => markerOf c
  | .dcSymbol, c => dcSymbolOf c
  | .acSymbol, c => acSymbolOf c

/-- The code byte of a well-formed instruction is read as that instruction. -/
def Statement (i : Instr) : Prop := i.wellFormed = true → read i.kind i.codeByte = i

/-- At once for every code of the reserved ranges. -/
theorem markerCodes : ∀ code : Byte,
    Statement (.reserved02_03 code)
    ∧ Statement (.reserved04_07 code)
    ∧ Statement (.reserved08_0F code)
    ∧ Statement (.reserved10_1F code)
    ∧ Statement (.reserved20_3F code)
    ∧ Statement (.reserved40_7F code)
    ∧ Statement (.reserved80_BF code) := by
  unfold Statement
  decide +kernel

/-- At once for every value of the illegal DC ranges. -/
theorem dcValues : ∀ value : Byte,
    Statement (.dcIllegal0C_0F value)
    ∧ Statement (.dcIllegal10_1F value)
    ∧ Statement (.dcIllegal20_3F value)
    ∧ Statement (.dcIllegal40_7F value)
    ∧ Statement (.dcIllegal80_FF value) := by
  unfold Statement
  decide +kernel

/-- At once for every run. -/
theorem acRuns : ∀ r : BitVec 4,
    Statement (.acRunSize1 r)
    ∧ Statement (.acRunSize2 r)
    ∧ Statement (.acRunSize3 r)
    ∧ Statement (.acRunSize4 r)
    ∧ Statement (.acRunSize5 r)
    ∧ Statement (.acRunSize6 r)
    ∧ Statement (.acRunSize7 r)
    ∧ Statement (.acRunSize8 r)
    ∧ Statement (.acRunSize9 r)
    ∧ Statement (.acRunSize10 r)
    ∧ Statement (.acIllegalSize11 r) := by
  unfold Statement
  decide +kernel

theorem invalid00 : Statement .invalid00 := fun _ => rfl

theorem tem : Statement .tem := fun _ => rfl

theorem reserved02_03 (code : Byte) : Statement (.reserved02_03 code) := (markerCodes code).1

theorem reserved04_07 (code : Byte) : Statement (.reserved04_07 code) := (markerCodes code).2.1

theorem reserved08_0F (code : Byte) : Statement (.reserved08_0F code) := (markerCodes code).2.2.1

theorem reserved10_1F (code : Byte) : Statement (.reserved10_1F code) := (markerCodes code).2.2.2.1

theorem reserved20_3F (code : Byte) : Statement (.reserved20_3F code) := (markerCodes code).2.2.2.2.1

theorem reserved40_7F (code : Byte) : Statement (.reserved40_7F code) := (markerCodes code).2.2.2.2.2.1

theorem reserved80_BF (code : Byte) : Statement (.reserved80_BF code) := (markerCodes code).2.2.2.2.2.2

theorem sof0 : Statement .sof0 := fun _ => rfl

theorem sof1 : Statement .sof1 := fun _ => rfl

theorem sof2 : Statement .sof2 := fun _ => rfl

theorem sof3 : Statement .sof3 := fun _ => rfl

theorem dht : Statement .dht := fun _ => rfl

theorem sof5 : Statement .sof5 := fun _ => rfl

theorem sof6 : Statement .sof6 := fun _ => rfl

theorem sof7 : Statement .sof7 := fun _ => rfl

theorem jpg : Statement .jpg := fun _ => rfl

theorem sof9 : Statement .sof9 := fun _ => rfl

theorem sof10 : Statement .sof10 := fun _ => rfl

theorem sof11 : Statement .sof11 := fun _ => rfl

theorem dac : Statement .dac := fun _ => rfl

theorem sof13 : Statement .sof13 := fun _ => rfl

theorem sof14 : Statement .sof14 := fun _ => rfl

theorem sof15 : Statement .sof15 := fun _ => rfl

theorem rst (n : BitVec 3) : Statement (.rst n) := by revert n; unfold Statement; decide +kernel

theorem soi : Statement .soi := fun _ => rfl

theorem eoi : Statement .eoi := fun _ => rfl

theorem sos : Statement .sos := fun _ => rfl

theorem dqt : Statement .dqt := fun _ => rfl

theorem dnl : Statement .dnl := fun _ => rfl

theorem dri : Statement .dri := fun _ => rfl

theorem dhp : Statement .dhp := fun _ => rfl

theorem exp : Statement .exp := fun _ => rfl

theorem app0 : Statement .app0 := fun _ => rfl

theorem app1 : Statement .app1 := fun _ => rfl

theorem app2 : Statement .app2 := fun _ => rfl

theorem app3 : Statement .app3 := fun _ => rfl

theorem app4 : Statement .app4 := fun _ => rfl

theorem app5 : Statement .app5 := fun _ => rfl

theorem app6 : Statement .app6 := fun _ => rfl

theorem app7 : Statement .app7 := fun _ => rfl

theorem app8 : Statement .app8 := fun _ => rfl

theorem app9 : Statement .app9 := fun _ => rfl

theorem app10 : Statement .app10 := fun _ => rfl

theorem app11 : Statement .app11 := fun _ => rfl

theorem app12 : Statement .app12 := fun _ => rfl

theorem app13 : Statement .app13 := fun _ => rfl

theorem app14 : Statement .app14 := fun _ => rfl

theorem app15 : Statement .app15 := fun _ => rfl

theorem jpg0 : Statement .jpg0 := fun _ => rfl

theorem jpg1 : Statement .jpg1 := fun _ => rfl

theorem jpg2 : Statement .jpg2 := fun _ => rfl

theorem jpg3 : Statement .jpg3 := fun _ => rfl

theorem jpg4 : Statement .jpg4 := fun _ => rfl

theorem jpg5 : Statement .jpg5 := fun _ => rfl

theorem jpg6 : Statement .jpg6 := fun _ => rfl

theorem jpg7 : Statement .jpg7 := fun _ => rfl

theorem jpg8 : Statement .jpg8 := fun _ => rfl

theorem jpg9 : Statement .jpg9 := fun _ => rfl

theorem jpg10 : Statement .jpg10 := fun _ => rfl

theorem jpg11 : Statement .jpg11 := fun _ => rfl

theorem jpg12 : Statement .jpg12 := fun _ => rfl

theorem jpg13 : Statement .jpg13 := fun _ => rfl

theorem com : Statement .com := fun _ => rfl

theorem fillFF : Statement .fillFF := fun _ => rfl

theorem dcSize0 : Statement .dcSize0 := fun _ => rfl

theorem dcSize1 : Statement .dcSize1 := fun _ => rfl

theorem dcSize2 : Statement .dcSize2 := fun _ => rfl

theorem dcSize3 : Statement .dcSize3 := fun _ => rfl

theorem dcSize4 : Statement .dcSize4 := fun _ => rfl

theorem dcSize5 : Statement .dcSize5 := fun _ => rfl

theorem dcSize6 : Statement .dcSize6 := fun _ => rfl

theorem dcSize7 : Statement .dcSize7 := fun _ => rfl

theorem dcSize8 : Statement .dcSize8 := fun _ => rfl

theorem dcSize9 : Statement .dcSize9 := fun _ => rfl

theorem dcSize10 : Statement .dcSize10 := fun _ => rfl

theorem dcSize11 : Statement .dcSize11 := fun _ => rfl

theorem dcIllegal0C_0F (value : Byte) : Statement (.dcIllegal0C_0F value) := (dcValues value).1

theorem dcIllegal10_1F (value : Byte) : Statement (.dcIllegal10_1F value) := (dcValues value).2.1

theorem dcIllegal20_3F (value : Byte) : Statement (.dcIllegal20_3F value) := (dcValues value).2.2.1

theorem dcIllegal40_7F (value : Byte) : Statement (.dcIllegal40_7F value) := (dcValues value).2.2.2.1

theorem dcIllegal80_FF (value : Byte) : Statement (.dcIllegal80_FF value) := (dcValues value).2.2.2.2

theorem acEob : Statement .acEob := fun _ => rfl

theorem acZrl : Statement .acZrl := fun _ => rfl

theorem acEobRun1 : Statement .acEobRun1 := fun _ => rfl

theorem acEobRun2 : Statement .acEobRun2 := fun _ => rfl

theorem acEobRun3 : Statement .acEobRun3 := fun _ => rfl

theorem acEobRun4 : Statement .acEobRun4 := fun _ => rfl

theorem acEobRun5 : Statement .acEobRun5 := fun _ => rfl

theorem acEobRun6 : Statement .acEobRun6 := fun _ => rfl

theorem acEobRun7 : Statement .acEobRun7 := fun _ => rfl

theorem acEobRun8 : Statement .acEobRun8 := fun _ => rfl

theorem acEobRun9 : Statement .acEobRun9 := fun _ => rfl

theorem acEobRun10 : Statement .acEobRun10 := fun _ => rfl

theorem acEobRun11 : Statement .acEobRun11 := fun _ => rfl

theorem acEobRun12 : Statement .acEobRun12 := fun _ => rfl

theorem acEobRun13 : Statement .acEobRun13 := fun _ => rfl

theorem acEobRun14 : Statement .acEobRun14 := fun _ => rfl

theorem acRunSize1 (r : BitVec 4) : Statement (.acRunSize1 r) := (acRuns r).1

theorem acRunSize2 (r : BitVec 4) : Statement (.acRunSize2 r) := (acRuns r).2.1

theorem acRunSize3 (r : BitVec 4) : Statement (.acRunSize3 r) := (acRuns r).2.2.1

theorem acRunSize4 (r : BitVec 4) : Statement (.acRunSize4 r) := (acRuns r).2.2.2.1

theorem acRunSize5 (r : BitVec 4) : Statement (.acRunSize5 r) := (acRuns r).2.2.2.2.1

theorem acRunSize6 (r : BitVec 4) : Statement (.acRunSize6 r) := (acRuns r).2.2.2.2.2.1

theorem acRunSize7 (r : BitVec 4) : Statement (.acRunSize7 r) := (acRuns r).2.2.2.2.2.2.1

theorem acRunSize8 (r : BitVec 4) : Statement (.acRunSize8 r) := (acRuns r).2.2.2.2.2.2.2.1

theorem acRunSize9 (r : BitVec 4) : Statement (.acRunSize9 r) := (acRuns r).2.2.2.2.2.2.2.2.1

theorem acRunSize10 (r : BitVec 4) : Statement (.acRunSize10 r) := (acRuns r).2.2.2.2.2.2.2.2.2.1

theorem acIllegalSize11 (r : BitVec 4) : Statement (.acIllegalSize11 r) := (acRuns r).2.2.2.2.2.2.2.2.2.2

theorem acIllegalSize12_15 (r : BitVec 4) (sz : BitVec 4) : Statement (.acIllegalSize12_15 r sz) := by revert r sz; unfold Statement; decide +kernel

end Sys2Proof.Laws.RoundTrip
end

