-- ==== Sys2Proof/Laws/Segments.lean ====
section
/-! SUPPORT. What the segment handlers' checks and writes can do (40_segments R98 to R103). -/

namespace Sys2Proof.Machine

theorem dqtEntries_defined (fuel : Nat) (p : List Byte) (qt : Vector QTable 4) (i : Fin 4) (h : qt[i].defined = true) :
    (dqtEntries fuel p qt).1[i].defined = true := by
  induction fuel generalizing p qt with
  | zero => exact h
  | succ n ih =>
    unfold dqtEntries
    split
    · exact h
    · split
      · exact h
      · split
        · exact h
        · split
          · exact h
          · apply ih
            simp only [Fin.getElem_fin, Vector.getElem_set]
            split
            · rfl
            · exact h

theorem dhtEntries_eq (fuel : Nat) (p : List Byte) (d : Decoder) :
    ∃ dc ac, (dhtEntries fuel p d).1 = { d with dcTables := dc, acTables := ac } := by
  induction fuel generalizing p d with
  | zero => exact ⟨_, _, rfl⟩
  | succ n ih =>
    unfold dhtEntries
    split
    · exact ⟨_, _, rfl⟩
    · simp only
      split
      · exact ⟨_, _, rfl⟩
      · split
        · exact ⟨_, _, rfl⟩
        · split
          · exact ⟨_, _, rfl⟩
          · split
            · exact ⟨_, _, rfl⟩
            · rename_i t _
              obtain ⟨dc, ac, he⟩ := ih (List.drop _ _) (d.setTable _ _ t)
              rw [he]
              unfold Decoder.setTable
              split <;> exact ⟨_, _, rfl⟩

theorem getFin_congr {α : Type} (v : Vector α 4) {i j : Fin 4} (h : i = j) : v[i] = v[j] := by subst h; rfl

theorem legalFactor_ok {n : Nat} : legalFactor n = true ↔ factorOk n := by
  simp [legalFactor, factorOk, or_assoc]

theorem frameComponents_ok {qt : Vector QTable 4} {n idx : Nat} {seen p : List Byte} {cs : List Component}
    (h : frameComponents qt n idx seen p = .ok cs) :
    cs.length = n ∧ (∀ (j : Nat) (c : Component), cs[j]? = some c → c.index = idx + j) ∧
      ∀ c ∈ cs, factorOk c.h ∧ factorOk c.v ∧ qt[c.tq].defined = true ∧ c.pred = 0 ∧ c.du = 0 ∧ c.scratch = Vector.replicate 64 0 := by
  induction n generalizing idx seen p cs with
  | zero => cases h; simp
  | succ n ih =>
    unfold frameComponents at h
    simp only at h
    split at h
    · cases h
    · split at h
      · cases h
      · split at h
        · cases h
        · split at h
          · cases h
          · rename_i hl hq _ cs' hcs
            cases h
            obtain ⟨h1, h2, h3⟩ := ih hcs
            refine ⟨by simp [h1], fun j c hj => ?_, fun c hc => ?_⟩
            · cases j with
              | zero => simp at hj; subst hj; rfl
              | succ j =>
                simp only [List.getElem?_cons_succ] at hj
                rw [h2 j c hj]; omega
            · rcases List.mem_cons.1 hc with rfl | hc
              · simp only [Bool.not_eq_true, Bool.not_eq_false', Bool.and_eq_true, legalFactor_ok] at hl
                refine ⟨hl.1, hl.2, ?_, rfl, rfl, rfl⟩
                simpa using (by simpa using hq : _ ∧ _).2
              · exact h3 c hc

theorem foldl_max_le (l : List Nat) (a : Nat) : a ≤ l.foldl max a ∧ ∀ x ∈ l, x ≤ l.foldl max a := by
  induction l generalizing a with
  | nil => simp
  | cons b l ih =>
    obtain ⟨h1, h2⟩ := ih (max a b)
    simp only [List.foldl_cons, List.mem_cons]
    exact ⟨by omega, fun x hx => by rcases hx with rfl | hx; omega; exact h2 x hx⟩

theorem foldl_max_mem (l : List Nat) (a : Nat) : l.foldl max a = a ∨ l.foldl max a ∈ l := by
  induction l generalizing a with
  | nil => simp
  | cons b l ih =>
    simp only [List.foldl_cons, List.mem_cons]
    rcases ih (max a b) with h | h
    · rw [h]; rcases Nat.le_total a b with hab | hab
      · right; left; omega
      · left; omega
    · exact .inr (.inr h)

theorem le_maxFactor (f : Component → Nat) {cs : List Component} {c : Component} (h : c ∈ cs) : f c ≤ maxFactor f cs :=
  (foldl_max_le _ 0).2 _ (List.mem_map_of_mem h)

theorem maxFactor_ok (f : Component → Nat) {cs : List Component} (h : ∀ c ∈ cs, factorOk (f c)) (hne : cs ≠ []) : factorOk (maxFactor f cs) := by
  unfold maxFactor
  rcases foldl_max_mem (cs.map f) 0 with h' | h'
  · obtain ⟨c, cs', rfl⟩ := List.exists_cons_of_ne_nil hne
    have := (foldl_max_le ((c :: cs').map f) 0).2 (f c) (by simp)
    have := h c (by simp)
    unfold factorOk at this
    omega
  · obtain ⟨c, hc, he⟩ := List.mem_map.1 h'
    rw [← he]; exact h c hc

theorem checkFrame_ok {cfg : Params} {d : Decoder} {p : List Byte} {cs : List Component} (h : checkFrame cfg d p = .ok cs) :
    d.framePresent = false ∧ byteAt p 0 = 8 ∧ 0 < (fieldU16 p 1).toNat ∧ 0 < (fieldU16 p 3).toNat ∧ 1 ≤ (byteAt p 5).toNat ∧ (byteAt p 5).toNat ≤ 4
     ∧ frameComponents d.qt (byteAt p 5).toNat 0 [] (p.drop 6) = .ok cs := by
  unfold checkFrame at h
  simp only at h
  repeat' split at h
  all_goals try cases h
  rename_i h1 h2 h3 h4 h5 h6 h7 _ h9 h8
  refine ⟨by simpa using h1, by simpa using h4, by omega, by omega, by omega, by omega, h8⟩

theorem scanEntries_ok {d : Decoder} {n : Nat} {seen : List Nat} {p : List Byte} {es : List ScanEntry} (h : scanEntries d n seen p = .ok es) :
    es.length = n ∧ (∀ e ∈ es, e.comp < d.comps.length ∧ e.comp ∉ seen ∧ d.dcTables[e.td].defined = true ∧ d.acTables[e.ta].defined = true) ∧ (es.map ScanEntry.comp).Nodup := by
  induction n generalizing seen p es with
  | zero => cases h; simp
  | succ n ih =>
    unfold scanEntries at h
    simp only at h
    split at h
    · cases h
    · rename_i i hi
      split at h
      · cases h
      · split at h
        · cases h
        · split at h
          · cases h
          · rename_i hs ht _ es' hes
            cases h
            obtain ⟨h1, h2, h3⟩ := ih hes
            simp only [Bool.or_eq_true, not_or, Bool.not_eq_true', Bool.not_eq_false] at ht
            refine ⟨by simp [h1], fun e he => ?_, ?_⟩
            · rcases List.mem_cons.1 he with rfl | he
              · refine ⟨?_, by simpa using hs, ht.1.2, ht.2⟩
                exact (List.findIdx?_eq_some_iff_getElem.1 hi).1
              · obtain ⟨e1, e2, e3⟩ := h2 e he
                exact ⟨e1, fun hm => e2 (List.mem_append_left _ hm), e3⟩
            · simp only [List.map_cons, List.nodup_cons]
              refine ⟨fun hm => ?_, h3⟩
              obtain ⟨e, he, he2⟩ := List.mem_map.1 hm
              apply (h2 e he).2.1
              simp [he2]

theorem checkScan_ok {d : Decoder} {p : List Byte} {es : List ScanEntry} (h : checkScan d p = .ok es) :
    d.framePresent = true ∧ d.scanPresent = false ∧ d.mode ≠ .extended ∧ d.mode ≠ .progressive ∧ d.mode ≠ .lossless ∧ scanEntries d d.nf [] (p.drop 1) = .ok es := by
  unfold checkScan at h
  simp only at h
  repeat' split at h
  all_goals try cases h
  rename_i h1 h2 h3 h4 h5 h6 h7 h8 _ h10 h9
  have : (byteAt p 0).toNat = d.nf := by omega
  rw [this] at h9
  exact ⟨by simpa using h1, by simpa using h2, h3, h4, h5, h9⟩

theorem assignTables_get (cs : List Component) (es : List ScanEntry) (j : Nat) :
    (assignTables cs es)[j]? = (cs[j]?).map fun c =>
      match es.reverse.find? (fun e => e.comp == j) with
      | some e => { c with td := e.td, ta := e.ta }
      | none => c := by
  induction es generalizing cs with
  | nil => cases h : cs[j]? <;> simp [assignTables, h]
  | cons e es ih =>
    rw [assignTables, ih, List.getElem?_modify, List.reverse_cons, List.find?_append]
    cases hc : cs[j]? with
    | none => simp
    | some c =>
      cases hf : es.reverse.find? (fun e => e.comp == j) with
      | some e' => by_cases hj : e.comp = j <;> simp [hj]
      | none => by_cases hj : e.comp = j <;> simp [hj]

theorem commit_comp {d : Decoder} {es : List ScanEntry} {j : Nat} {c : Component}
    (h : (assignTables (d.comps.map Component.startScan) es)[j]? = some c) :
    ∃ c0, d.comps[j]? = some c0 ∧ c.id = c0.id ∧ c.index = c0.index ∧ c.h = c0.h ∧ c.v = c0.v ∧ c.tq = c0.tq ∧ c.scratch = c0.scratch ∧ c.pred = 0 ∧ c.du = 0 ∧
     (∀ e, es.reverse.find? (fun e => e.comp == j) = some e → c.td = e.td ∧ c.ta = e.ta) := by
  rw [assignTables_get] at h
  simp only [List.getElem?_map, Option.map_map, Option.map_eq_some_iff] at h
  obtain ⟨c0, h0, rfl⟩ := h
  refine ⟨c0, h0, ?_⟩
  simp only [Function.comp]
  split
  · rename_i e he
    refine ⟨rfl, rfl, rfl, rfl, rfl, rfl, rfl, rfl, fun e' he' => ?_⟩
    rw [he] at he'; injection he' with he'; subst he'; exact ⟨rfl, rfl⟩
  · rename_i he
    exact ⟨rfl, rfl, rfl, rfl, rfl, rfl, rfl, rfl, fun e' he' => by rw [he] at he'; cases he'⟩

end Sys2Proof.Machine
end

