-- ==== Sys2Proof/Laws/Placement.lean ====
section
/-! SUPPORT. The geometry of placement (43_mcu_color R144 to R146) and what writing a data unit's pixels leaves in IMG. -/

namespace Sys2Proof.Machine

theorem axis_fwd {m f q dx xx i : Nat} (hm : factorOk m) (hf : factorOk f) (hle : f ≤ m) (hdx : dx < f) (hxx : xx < 8) (hi : i < m / f) :
    (q * 8 * m + (dx * 8 + xx) * (m / f) + i) / (8 * m) = q ∧ (q * 8 * m + (dx * 8 + xx) * (m / f) + i) % (8 * m) / (8 * (m / f)) = dx := by
  unfold factorOk at hm hf
  rcases hm with rfl | rfl | rfl <;> rcases hf with rfl | rfl | rfl <;> simp only [Nat.reduceDiv, Nat.reduceMul] at * <;> omega

theorem axis_bwd {m f : Nat} (hm : factorOk m) (hf : factorOk f) (hle : f ≤ m) (x : Nat) :
    x % (8 * m) / (8 * (m / f)) < f ∧ ∃ xx i, xx < 8 ∧ i < m / f ∧ x = x / (8 * m) * 8 * m + (x % (8 * m) / (8 * (m / f)) * 8 + xx) * (m / f) + i := by
  refine ⟨?_, x % (8 * m) % (8 * (m / f)) / (m / f), x % (8 * m) % (8 * (m / f)) % (m / f), ?_⟩ <;>
  unfold factorOk at hm hf <;>
  rcases hm with rfl | rfl | rfl <;> rcases hf with rfl | rfl | rfl <;> simp only [Nat.reduceDiv, Nat.reduceMul] at * <;> omega

theorem mem_samplePixels {d : Decoder} {c : Component} {yy xx : Nat} {p : Nat × Nat} :
    p ∈ samplePixels d c yy xx ↔ p.1 < d.width.toNat ∧ p.2 < d.height.toNat ∧
      ∃ i < d.hmax / c.h, ∃ j < d.vmax / c.v, p.1 = (sampleOrigin d c yy xx).1 + i ∧ p.2 = (sampleOrigin d c yy xx).2 + j := by
  unfold samplePixels
  simp only [List.mem_filter, List.mem_flatMap, List.mem_map, List.mem_range, Bool.and_eq_true, decide_eq_true_eq]
  constructor
  · rintro ⟨⟨j, hj, i, hi, rfl⟩, h1, h2⟩
    exact ⟨h1, h2, i, hi, j, hj, rfl, rfl⟩
  · rintro ⟨h1, h2, i, hi, j, hj, e1, e2⟩
    exact ⟨⟨j, hj, i, hi, by ext <;> simp [e1, e2]⟩, h1, h2⟩

theorem mem_unitPixels {d : Decoder} {c : Component} (S : Vector Byte 64) (hh : factorOk d.hmax) (hv : factorOk d.vmax)
    (ch : factorOk c.h ∧ factorOk c.v ∧ c.h ≤ d.hmax ∧ c.v ≤ d.vmax) (hx : d.mcux = ceilDiv d.width.toNat (8 * d.hmax)) (hdu : c.du < c.h * c.v) {x y : Nat} :
    (∃ b, ((x, y), b) ∈ unitPixels d c S) ↔ x < d.width.toNat ∧ y < d.height.toNat ∧ mcuOfPixel d x y = d.mcu ∧ unitOfPixel d c x y = c.du := by
  obtain ⟨c1, c2, c3, c4⟩ := ch
  have hpos : 0 < c.h := by unfold factorOk at c1; omega
  unfold unitPixels
  simp only [List.mem_flatMap, List.mem_range, List.mem_map, Prod.mk.injEq]
  constructor
  · rintro ⟨b, n, hn, p, hp, rfl, rfl⟩
    obtain ⟨h1, h2, i, hi, j, hj, e1, e2⟩ := mem_samplePixels.1 hp
    simp only at h1 h2 e1 e2
    simp only [sampleOrigin] at e1 e2
    obtain ⟨a1, a2⟩ := axis_fwd (q := d.mcu % d.mcux) (dx := c.du % c.h) (xx := n % 8) hh c1 c3 (Nat.mod_lt _ hpos) (by omega) hi
    obtain ⟨b1, b2⟩ := axis_fwd (q := d.mcu / d.mcux) (dx := c.du / c.h) (xx := n / 8) hv c2 c4 (Nat.div_lt_of_lt_mul hdu) (by omega) hj
    rw [← e1] at a1 a2
    rw [← e2] at b1 b2
    refine ⟨h1, h2, ?_, ?_⟩
    · unfold mcuOfPixel
      rw [a1, b1, Nat.mul_comm]; exact Nat.div_add_mod _ _
    · unfold unitOfPixel
      rw [a2, b2, Nat.mul_comm]; exact Nat.div_add_mod _ _
  · rintro ⟨h1, h2, h3, h4⟩
    have hmx : x / (8 * d.hmax) < d.mcux := by
      rw [hx]; unfold ceilDiv
      unfold factorOk at hh
      rcases hh with h | h | h <;> rw [h] <;> simp only [Nat.reduceMul] <;> omega
    obtain ⟨dxl, xx, i, hxx, hi, ex⟩ := axis_bwd hh c1 c3 x
    obtain ⟨dyl, yy, j, hyy, hj, ey⟩ := axis_bwd hv c2 c4 y
    have m1 : d.mcu % d.mcux = x / (8 * d.hmax) := by
      rw [← h3]; unfold mcuOfPixel
      rw [Nat.mul_comm, Nat.mul_add_mod, Nat.mod_eq_of_lt hmx]
    have m2 : d.mcu / d.mcux = y / (8 * d.vmax) := by
      rw [← h3]; unfold mcuOfPixel
      rw [Nat.mul_comm, Nat.mul_add_div (by omega), Nat.div_eq_of_lt hmx]; rfl
    have u1 : c.du % c.h = x % (8 * d.hmax) / (8 * (d.hmax / c.h)) := by
      rw [← h4]; unfold unitOfPixel
      rw [Nat.mul_comm, Nat.mul_add_mod, Nat.mod_eq_of_lt dxl]
    have u2 : c.du / c.h = y % (8 * d.vmax) / (8 * (d.vmax / c.v)) := by
      rw [← h4]; unfold unitOfPixel
      rw [Nat.mul_comm, Nat.mul_add_div hpos, Nat.div_eq_of_lt dxl]; rfl
    refine ⟨_, 8 * yy + xx, by omega, (x, y), mem_samplePixels.2 ⟨h1, h2, i, hi, j, hj, ?_, ?_⟩, rfl, rfl⟩
    · simp only [sampleOrigin]
      rw [m1, u1, show (8 * yy + xx) % 8 = xx by omega]; exact ex
    · simp only [sampleOrigin]
      rw [m2, u2, show (8 * yy + xx) / 8 = yy by omega]; exact ey

theorem pixelOffset_lt {d : Decoder} {x y i : Nat} (hx : x < d.width.toNat) (hy : y < d.height.toNat) (hi : i < d.nf) :
    pixelOffset d (x, y) + i < imageSize d := by
  unfold pixelOffset imageSize
  simp only
  have h1 : y * d.width.toNat + x < d.width.toNat * d.height.toNat := by
    have : (y + 1) * d.width.toNat ≤ d.height.toNat * d.width.toNat := Nat.mul_le_mul_right _ hy
    rw [Nat.mul_comm d.width.toNat]
    rw [Nat.succ_mul] at this
    omega
  have : (y * d.width.toNat + x + 1) * d.nf ≤ d.width.toNat * d.height.toNat * d.nf := Nat.mul_le_mul_right _ h1
  rw [Nat.succ_mul] at this
  omega

theorem cell_split {d : Decoder} {o : Nat} (ho : o < imageSize d) :
    ∃ x y i, x < d.width.toNat ∧ y < d.height.toNat ∧ i < d.nf ∧ o = pixelOffset d (x, y) + i := by
  unfold imageSize at ho
  have hn : 0 < d.nf := Nat.pos_of_ne_zero fun h => by simp [h] at ho
  have hw : 0 < d.width.toNat := Nat.pos_of_ne_zero fun h => by simp [h] at ho
  have h1 : o / d.nf < d.width.toNat * d.height.toNat := by
    rw [Nat.div_lt_iff_lt_mul hn]; exact ho
  refine ⟨o / d.nf % d.width.toNat, o / d.nf / d.width.toNat, o % d.nf, Nat.mod_lt _ hw, ?_, Nat.mod_lt _ hn, ?_⟩
  · exact Nat.div_lt_of_lt_mul h1
  · unfold pixelOffset
    simp only
    rw [Nat.mul_comm (o / d.nf / d.width.toNat), Nat.div_add_mod, Nat.mul_comm, Nat.div_add_mod]

theorem unitOfPixel_lt {d : Decoder} {c : Component} (hh : factorOk d.hmax) (hv : factorOk d.vmax)
    (ch : factorOk c.h ∧ factorOk c.v ∧ c.h ≤ d.hmax ∧ c.v ≤ d.vmax) (x y : Nat) : unitOfPixel d c x y < c.h * c.v := by
  obtain ⟨c1, c2, c3, c4⟩ := ch
  have h1 := (axis_bwd hh c1 c3 x).1
  have h2 := (axis_bwd hv c2 c4 y).1
  unfold unitOfPixel
  calc _ < y % (8 * d.vmax) / (8 * (d.vmax / c.v)) * c.h + c.h := by omega
    _ = (y % (8 * d.vmax) / (8 * (d.vmax / c.v)) + 1) * c.h := (Nat.succ_mul _ _).symm
    _ ≤ c.v * c.h := Nat.mul_le_mul_right _ h2
    _ = _ := Nat.mul_comm _ _

theorem isSome_write {m : Memory} {a x : Nat} {v : Byte} : (Memory.read (Memory.write m a v) x).isSome = true ↔ x = a ∨ (Memory.read m x).isSome = true := by
  rw [Memory.read_write]
  split <;> simp_all

theorem convertPixel_ok {mode : RoundMode} {pix : Memory} {o : Nat} (h : ∀ i < 3, (Memory.read pix (o + i)).isSome = true) :
    ∃ pix', convertPixel mode pix o = .ok pix' ∧ (∀ a, (Memory.read pix' a).isSome = true ↔ (Memory.read pix a).isSome = true) ∧ (pix.wf → pix'.wf) := by
  obtain ⟨y, hy⟩ := Option.isSome_iff_exists.1 (h 0 (by omega))
  obtain ⟨cb, hcb⟩ := Option.isSome_iff_exists.1 (h 1 (by omega))
  obtain ⟨cr, hcr⟩ := Option.isSome_iff_exists.1 (h 2 (by omega))
  rw [Nat.add_zero] at hy
  refine ⟨Memory.write (Memory.write (Memory.write pix o (ycbcrToRgb mode y cb cr).1) (o + 1) (ycbcrToRgb mode y cb cr).2.1) (o + 2) (ycbcrToRgb mode y cb cr).2.2, ?_, fun a => ?_, fun hw => ?_⟩
  · simp [convertPixel, hy, hcb, hcr]
  · simp only [isSome_write]
    constructor
    · rintro (rfl | rfl | rfl | h) <;> simp_all
    · intro h; simp [h]
  · exact Memory.wf_write (Memory.wf_write (Memory.wf_write hw _ _) _ _) _ _

theorem placePixels_ok (mode : RoundMode) (d : Decoder) (index : Nat) (conv : Bool) (ws : List ((Nat × Nat) × Byte)) (pix : Memory)
    (hr : ∀ w ∈ ws, pixelOffset d w.1 + index < imageSize d)
    (hc : conv = true → ∀ w ∈ ws, ∀ i < 3, i ≠ index → (Memory.read pix (pixelOffset d w.1 + i)).isSome = true) :
    ∃ pix', placePixels mode d index conv pix ws = .ok pix' ∧
      (∀ o, (Memory.read pix' o).isSome = true ↔ (Memory.read pix o).isSome = true ∨ ∃ w ∈ ws, o = pixelOffset d w.1 + index) ∧ (pix.wf → pix'.wf) := by
  induction ws generalizing pix with
  | nil => exact ⟨pix, rfl, by simp, id⟩
  | cons w ws ih =>
    have h0 := hr w (by simp)
    obtain ⟨p1, e1, s1, w1⟩ : ∃ p1, placePixel mode d index conv pix w = .ok p1 ∧ (∀ o, (Memory.read p1 o).isSome = true ↔ (Memory.read pix o).isSome = true ∨ o = pixelOffset d w.1 + index) ∧ (pix.wf → p1.wf) := by
      unfold placePixel
      simp only
      rw [if_neg (by omega)]
      cases conv with
      | false => exact ⟨_, rfl, fun o => by rw [isSome_write]; tauto, fun h => Memory.wf_write h _ _⟩
      | true =>
        simp only [↓reduceIte]
        obtain ⟨p1, e1, s1, w1⟩ := convertPixel_ok (mode := mode) (pix := Memory.write pix (pixelOffset d w.1 + index) w.2) (o := pixelOffset d w.1) fun i hi => by
          rw [isSome_write]
          by_cases hii : i = index
          · left; rw [hii]
          · right; exact hc rfl w (by simp) i hi hii
        exact ⟨p1, e1, fun o => by rw [s1, isSome_write]; tauto, fun h => w1 (Memory.wf_write h _ _)⟩
    obtain ⟨p2, e2, s2, w2⟩ := ih p1 (fun w' hw => hr w' (by simp [hw])) (fun hcv w' hw i hi hii => (s1 _).2 (.inl (hc hcv w' (by simp [hw]) i hi hii)))
    refine ⟨p2, ?_, fun o => ?_, fun h => w2 (w1 h)⟩
    · simp only [placePixels, e1]; exact e2
    · rw [s2, s1]
      simp only [List.mem_cons, exists_eq_or_imp]
      tauto

end Sys2Proof.Machine
end

