-- ==== Sys2Proof/Laws/Scan.lean ====
section
/-! SUPPORT. What the entropy decoder's operations can do (41_huffman R117; 42_entropy R125, R129 to R135, R138, R139). -/

namespace Sys2Proof.Machine

theorem zeroFill_i32 (sc : Vector Int 64) (h : ∀ i : Fin 64, inI32 sc[i] = true) (n k : Nat) : ∀ i : Fin 64, inI32 (zeroFill sc k n)[i] = true := by
  induction n generalizing sc k with
  | zero => exact h
  | succ n ih =>
    refine ih _ (fun i => ?_) _
    simp only [Fin.getElem_fin, Vector.getElem_set]
    split
    · rfl
    · exact h i

theorem huffStep_more {t : HuffTable} {c : U16} {w : Nat} (h : huffStep t c w = .more) : w ≠ 16 := by
  unfold huffStep at h
  split at h
  · split at h <;> cases h
  · split at h
    · cases h
    · split at h
      · cases h
      · assumption

theorem exec_symbol (k : Nat) (v : Byte) (s : State) :
    (∃ e, exec (decodeSymbol k v) s = raise e s) ∨ (exec (decodeSymbol k v) s = .next (s.withDec { s.dec with sub := .endOfBlockCount })) ∨
     ∃ run mag, run ≤ 15 ∧ mag ≤ 15 ∧ exec (decodeSymbol k v) s = .next (s.withDec { s.dec with run := run, mag := mag, amp := 0, ampn := 0, sub := .amplitude }) := by
  have a : ∀ (r m : Nat), r ≤ 15 → m ≤ 15 → ∃ run mag, run ≤ 15 ∧ mag ≤ 15 ∧ startAmplitude r m s = .next (s.withDec { s.dec with run := run, mag := mag, amp := 0, ampn := 0, sub := .amplitude }) := fun r m hr hm => ⟨r, m, hr, hm, rfl⟩
  have b : ∀ r : BitVec 4, r.toNat ≤ 15 := fun r => by have := r.isLt; omega
  generalize hi : decodeSymbol k v = i
  unfold decodeSymbol at hi
  split at hi
  · unfold dcSymbolOf at hi
    split at hi
    all_goals first | (subst hi; exact .inr (.inr (a _ _ (by omega) (by omega)))) | (repeat' split at hi) <;> (subst hi; exact .inl ⟨_, rfl⟩)
  · unfold acSymbolOf at hi
    split at hi
    · unfold acZeroSizeOf at hi
      split at hi <;> subst hi <;> first | exact .inr (.inl rfl) | exact .inl ⟨_, rfl⟩ | exact .inr (.inr (a _ _ (by omega) (by omega)))
    all_goals subst hi; first | exact .inr (.inr (a _ _ (b _) (by omega))) | exact .inl ⟨_, rfl⟩

theorem readBit_noHole {d : Decoder} (h : d.InputOk) (a : Nat) : readBit d ≠ .hole a := by
  unfold readBit
  split
  · simp [takeBit]
  · split
    · simp
    · split
      · rename_i hn
        have := (h.extent d.pos).2 (by omega)
        rw [hn] at this; cases this
      · split
        · split
          · simp
          · split
            · rename_i hn
              have := (h.extent (d.pos + 1)).2 (by omega)
              rw [hn] at this; cases this
            · split <;> simp [takeBit]
        · simp [takeBit]

theorem segFetch_noHole {d : Decoder} (h : d.InputOk) (a : Nat) : segFetch d ≠ .hole a := by
  unfold segFetch
  split
  · simp
  · split
    · rename_i hn
      have h0 := (h.extent d.pos).2 (by omega)
      have h1 := (h.extent (d.pos + 1)).2 (by omega)
      obtain ⟨v0, e0⟩ := Option.isSome_iff_exists.1 h0
      obtain ⟨v1, e1⟩ := Option.isSome_iff_exists.1 h1
      simp [Memory.be16, e0, e1] at hn
    · split
      · simp
      · split
        · simp
        · split
          · rename_i _ len _ _ _ _ hn
            have := Memory.readBytes_isSome (m := d.input) (a := d.pos + 2) (n := len - 2) fun i hi => (h.extent _).2 (by omega)
            rw [hn] at this; cases this
          · simp

end Sys2Proof.Machine
end

