-- ==== Sys2Proof/Laws/Transform.lean ====
section
/-! SUPPORT. What the inverse transform does with a block that has only a DC coefficient (44_transform R158, R160). -/

namespace Sys2Proof.Machine

/-- A value that the neutral operations of the transform keep: the product with `COS[x][0]`, the sum with a zero of either sign. -/
structure KeptByNeutral (a : F64) : Prop where
  one : ∀ x : Fin 8, F64.mul a (Rom.cos x 0) = a
  first : F64.add (.fin false 0 (-1074)) a = a
  zero : ∀ s, F64.add a (.fin s 0 (-1074)) = a

/-- A sum with one term that is no zero is that term. -/
theorem sum8_first {f : Fin 8 → F64} {a : F64} (h : KeptByNeutral a) (h0 : f 0 = a)
    (hz : ∀ u, u ≠ 0 → ∃ s, f u = .fin s 0 (-1074)) : sum8 f = a := by
  unfold sum8
  simp only [List.foldl_cons, List.foldl_nil]
  obtain ⟨s1, h1⟩ := hz 1 (by decide)
  obtain ⟨s2, h2⟩ := hz 2 (by decide)
  obtain ⟨s3, h3⟩ := hz 3 (by decide)
  obtain ⟨s4, h4⟩ := hz 4 (by decide)
  obtain ⟨s5, h5⟩ := hz 5 (by decide)
  obtain ⟨s6, h6⟩ := hz 6 (by decide)
  obtain ⟨s7, h7⟩ := hz 7 (by decide)
  rw [h0, h1, h2, h3, h4, h5, h6, h7, h.first]
  simp only [h.zero]

theorem keptByNeutral_zero : KeptByNeutral (.fin false 0 (-1074)) := ⟨by decide +kernel, by decide +kernel, by decide +kernel⟩

/-- A coefficient of zero gives a term of zero. -/
theorem idct_zero_term (v x : Fin 8) : ∃ s, F64.mul (F64.mul (Rom.alpha v) (.fin false 0 (-1074))) (Rom.cos x v) = .fin s 0 (-1074) := by
  have h : ∀ v x : Fin 8, F64.mul (F64.mul (Rom.alpha v) (.fin false 0 (-1074))) (Rom.cos x v) = .fin false 0 (-1074)
      ∨ F64.mul (F64.mul (Rom.alpha v) (.fin false 0 (-1074))) (Rom.cos x v) = .fin true 0 (-1074) := by decide +kernel
  exact (h v x).elim (fun h => ⟨_, h⟩) fun h => ⟨_, h⟩

theorem ofInt_zero : F64.ofInt 0 = .fin false 0 (-1074) := rfl

theorem dcOnly_get (n : Int) (i : Fin 64) : ((Vector.replicate 64 (0 : Int)).set 0 n)[i] = if i = 0 then n else 0 := by
  simp only [Fin.getElem_fin, Vector.getElem_set, Vector.getElem_replicate]
  by_cases h : i = 0
  · subst h; simp
  · have : ¬ (0 = i.val) := fun h' => h (Fin.ext h'.symm)
    rw [if_neg this, if_neg h]

/-- The first pass leaves the scaled DC in row 0 and zeros elsewhere. -/
theorem idctRows_dcOnly {n : Int} {a : F64} (h : KeptByNeutral a) (ha : F64.mul (Rom.alpha 0) (F64.ofInt n) = a) (p : Fin 64) :
   (idctRows ((Vector.replicate 64 0).set 0 n))[p] = if rowOf p = 0 then a else .fin false 0 (-1074) := by
  unfold idctRows
  simp only [Fin.getElem_fin, Vector.getElem_ofFn]
  split
  · rename_i hr
    refine sum8_first h ?_ ?_
    · have := dcOnly_get n (natPos (rowOf p) 0)
      rw [Fin.getElem_fin] at this
      rw [this, hr, if_pos (by decide), ha]; exact h.one _
    · intro u hu
      have := dcOnly_get n (natPos (rowOf p) u)
      rw [Fin.getElem_fin] at this
      rw [this, hr, if_neg ((by decide : ∀ u : Fin 8, u ≠ 0 → natPos 0 u ≠ 0) u hu), ofInt_zero]; exact idct_zero_term u _
  · rename_i hr
    have hnz : ∀ r u : Fin 8, r ≠ 0 → natPos r u ≠ 0 := by decide
    have hall : ∀ u, ∃ s, F64.mul (F64.mul (Rom.alpha u) (F64.ofInt ((Vector.replicate 64 (0 : Int)).set 0 n)[(natPos (rowOf p) u).val]))
        (Rom.cos (colOf p) u) = .fin s 0 (-1074) := by
      intro u
      have := dcOnly_get n (natPos (rowOf p) u)
      rw [Fin.getElem_fin] at this
      rw [this, if_neg (hnz _ _ hr), ofInt_zero]; exact idct_zero_term u _
    refine sum8_first keptByNeutral_zero ?_ (fun u _ => hall u)
    have := dcOnly_get n (natPos (rowOf p) 0)
    rw [Fin.getElem_fin] at this
    rw [this, if_neg (hnz _ _ hr), ofInt_zero]
    have : ∀ x : Fin 8, F64.mul (F64.mul (Rom.alpha 0) (.fin false 0 (-1074))) (Rom.cos x 0) = .fin false 0 (-1074) := by decide +kernel
    exact this _

/-- Every output of a DC-only block is `ALPHA[0] * (ALPHA[0] * DC)`, each product rounded (R160). -/
theorem idctReal_dcOnly {n : Int} {a b : F64} (h : KeptByNeutral a) (k : KeptByNeutral b) (ha : F64.mul (Rom.alpha 0) (F64.ofInt n) = a)
    (hb : F64.mul (Rom.alpha 0) a = b) : idctReal ((Vector.replicate 64 0).set 0 n) = Vector.replicate 64 b := by
  unfold idctReal
  have hrow : ∀ v x, rowOf (natPos v x) = v := by decide
  ext i hi
  have hr := fun v => idctRows_dcOnly h ha (natPos v (colOf ⟨i, hi⟩))
  generalize idctRows ((Vector.replicate 64 0).set 0 n) = t at *
  unfold idctCols
  simp only [Vector.getElem_ofFn, Vector.getElem_replicate]
  refine sum8_first k ?_ ?_
  · rw [hr 0, hrow, if_pos rfl, hb]; exact k.one _
  · intro v hv
    rw [hr v, hrow, if_neg hv]; exact idct_zero_term v _

end Sys2Proof.Machine
end

