-- ==== Sys2Proof/Tests/Slice0.lean ====
section
/-! SUPPORT. Tests of one operation each, with results from the spec (its tables, and 95_test_vectors); and for each obligation that has
hypotheses a state and operands that meet them, clause by clause. The proofs run one at a time, which bounds the memory they take. -/

namespace Sys2Proof.Tests

set_option Elab.async false

open Sys2Proof.Machine

/-! ### Helpers -/

/-- The next state of an outcome. -/
def nextOf (o : Host.Outcome State Fault Refusal) : Option State :=
  match o with
  | .next s => some s
  | .fault _ => none
  | .refused _ => none

/-- The defaults of R7 with a concrete size limit. -/
def cfg0 : Params := { Params.default with maxImageBytes := 64 }

/-- A running Feed in a segment state, with bytes supplied. -/
def feeding (seg : Seg) (bytes : List Byte) : State where
  cfg := cfg0
  dec := { Decoder.reset with seg := seg, input := Memory.writeBytes [] 0 bytes, avail := bytes.length }
  enc := none
  host := { HostPort.reset with running := true }

/-- A decoder changed. -/
def upd (f : Decoder → Decoder) (s : State) : State := s.withDec (f s.dec)

/-- No Feed running, one operation pending. -/
def asked (op : HostOp) (d : Decoder) : State where
  cfg := cfg0
  dec := d
  enc := none
  host := { HostPort.reset with pending := [op] }

/-- A frame header accepted before: two quantization tables defined. -/
def withTables (d : Decoder) : Decoder :=
  { d with
    qt := Vector.replicate 4 { QTable.reset with defined := true }
    dcTables := Vector.replicate 4 { HuffTable.reset with defined := true }
    acTables := Vector.replicate 4 { HuffTable.reset with defined := true } }

/-- A component of a 1 x 1 data-unit MCU. -/
def comp (id : Byte) (index : Nat) : Component where
  id := id
  index := index
  h := 1
  v := 1
  tq := 0
  td := 0
  ta := 0
  pred := 0
  du := 0
  scratch := Vector.replicate 64 0

/-- A baseline frame of two components with identifiers 1 and 2, no scan. -/
def framed (d : Decoder) : Decoder :=
  { withTables d with framePresent := true, mode := .baseline, nf := 2, comps := [comp 1 0, comp 2 1] }

/-- The scan of one 8 x 8 block of one component (Driver.symbolContext), at coefficient index 1. -/
def oneUnit (bytes : List Byte) : State := upd (symbolContext · 0) (feeding .scan bytes)

/-- The scan of a three-component image of one pixel, at the component of scan position `p`, the components before it placed. -/
def threeUnit (p : Nat) : State :=
  upd (fun d => { symbolContext d 0 with
    width := 1, height := 1, nf := 3, ns := 3, order := [0, 1, 2], comps := [comp 1 0, comp 2 1, comp 3 2], scanPos := p
    img := some ⟨1, 1, 3, ⟨0, 0, 0⟩, (List.range p).map fun i => (i, 128)⟩ }) (feeding .scan [])

/-! ### Well-formedness: each check refuses an ill-formed term -/

theorem test_wf_reserved :
    (Instr.reserved02_03 0x04).wellFormed = false ∧ (Instr.reserved04_07 0x08).wellFormed = false
    ∧ (Instr.reserved08_0F 0x10).wellFormed = false ∧ (Instr.reserved10_1F 0x20).wellFormed = false
    ∧ (Instr.reserved20_3F 0x40).wellFormed = false ∧ (Instr.reserved40_7F 0x80).wellFormed = false
    ∧ (Instr.reserved80_BF 0xC0).wellFormed = false := by decide

theorem test_wf_symbols :
    (Instr.dcIllegal0C_0F 0x0B).wellFormed = false ∧ (Instr.dcIllegal10_1F 0x0F).wellFormed = false
    ∧ (Instr.dcIllegal20_3F 0x1F).wellFormed = false ∧ (Instr.dcIllegal40_7F 0x3F).wellFormed = false
    ∧ (Instr.dcIllegal80_FF 0x7F).wellFormed = false ∧ (Instr.acIllegalSize12_15 0 11).wellFormed = false := by decide

/-! ### Decoding: the words of the opcode table (30_encoding R71, R83, R84) -/

theorem test_decode_reserved_markers :
    [0xFF00, 0xFF01, 0xFF02, 0xFF03, 0xFF04, 0xFF07, 0xFF08, 0xFF0F, 0xFF10, 0xFF1F, 0xFF20, 0xFF3F, 0xFF40, 0xFF7F, 0xFF80, 0xFFBF].map
      (decodeTableWord 16)
    = [some .invalid00, some .tem, some (.reserved02_03 0x02), some (.reserved02_03 0x03), some (.reserved04_07 0x04),
       some (.reserved04_07 0x07), some (.reserved08_0F 0x08), some (.reserved08_0F 0x0F), some (.reserved10_1F 0x10),
       some (.reserved10_1F 0x1F), some (.reserved20_3F 0x20), some (.reserved20_3F 0x3F), some (.reserved40_7F 0x40),
       some (.reserved40_7F 0x7F), some (.reserved80_BF 0x80), some (.reserved80_BF 0xBF)] := by decide

theorem test_decode_frame_markers :
    [0xFFC0, 0xFFC1, 0xFFC2, 0xFFC3, 0xFFC4, 0xFFC5, 0xFFC6, 0xFFC7, 0xFFC8, 0xFFC9, 0xFFCA, 0xFFCB, 0xFFCC, 0xFFCD, 0xFFCE, 0xFFCF].map
      (decodeTableWord 16)
    = [some .sof0, some .sof1, some .sof2, some .sof3, some .dht, some .sof5, some .sof6, some .sof7, some .jpg, some .sof9,
       some .sof10, some .sof11, some .dac, some .sof13, some .sof14, some .sof15] := by decide

theorem test_decode_segment_markers :
    [0xFFD0, 0xFFD5, 0xFFD7, 0xFFD8, 0xFFD9, 0xFFDA, 0xFFDB, 0xFFDC, 0xFFDD, 0xFFDE, 0xFFDF, 0xFFFE, 0xFFFF].map (decodeTableWord 16)
    = [some (.rst 0), some (.rst 5), some (.rst 7), some .soi, some .eoi, some .sos, some .dqt, some .dnl, some .dri, some .dhp,
       some .exp, some .com, some .fillFF] := by decide

theorem test_decode_application_markers :
    [0xFFE0, 0xFFE1, 0xFFE2, 0xFFE3, 0xFFE4, 0xFFE5, 0xFFE6, 0xFFE7, 0xFFE8, 0xFFE9, 0xFFEA, 0xFFEB, 0xFFEC, 0xFFED, 0xFFEE, 0xFFEF].map
      (decodeTableWord 16)
    = [some .app0, some .app1, some .app2, some .app3, some .app4, some .app5, some .app6, some .app7, some .app8, some .app9,
       some .app10, some .app11, some .app12, some .app13, some .app14, some .app15] := by decide

theorem test_decode_extension_markers :
    [0xFFF0, 0xFFF1, 0xFFF2, 0xFFF3, 0xFFF4, 0xFFF5, 0xFFF6, 0xFFF7, 0xFFF8, 0xFFF9, 0xFFFA, 0xFFFB, 0xFFFC, 0xFFFD].map
      (decodeTableWord 16)
    = [some .jpg0, some .jpg1, some .jpg2, some .jpg3, some .jpg4, some .jpg5, some .jpg6, some .jpg7, some .jpg8, some .jpg9,
       some .jpg10, some .jpg11, some .jpg12, some .jpg13] := by decide

theorem test_decode_dc_symbols :
    ([0x00, 0x01, 0x02, 0x03, 0x04, 0x05, 0x06, 0x07, 0x08, 0x09, 0x0A, 0x0B, 0x0C, 0x0F, 0x10, 0x1F, 0x20, 0x3F, 0x40, 0x7F, 0x80, 0xFF] :
      List Byte).map (decodeSymbol 0)
    = [.dcSize0, .dcSize1, .dcSize2, .dcSize3, .dcSize4, .dcSize5, .dcSize6, .dcSize7, .dcSize8, .dcSize9, .dcSize10, .dcSize11,
       .dcIllegal0C_0F 0x0C, .dcIllegal0C_0F 0x0F, .dcIllegal10_1F 0x10, .dcIllegal10_1F 0x1F, .dcIllegal20_3F 0x20, .dcIllegal20_3F 0x3F,
       .dcIllegal40_7F 0x40, .dcIllegal40_7F 0x7F, .dcIllegal80_FF 0x80, .dcIllegal80_FF 0xFF] := by decide

theorem test_decode_ac_zero_size :
    [0x00, 0x10, 0x20, 0x30, 0x40, 0x50, 0x60, 0x70, 0x80, 0x90, 0xA0, 0xB0, 0xC0, 0xD0, 0xE0, 0xF0].map (decodeTableWord 8)
    = [some .acEob, some .acEobRun1, some .acEobRun2, some .acEobRun3, some .acEobRun4, some .acEobRun5, some .acEobRun6, some .acEobRun7,
       some .acEobRun8, some .acEobRun9, some .acEobRun10, some .acEobRun11, some .acEobRun12, some .acEobRun13, some .acEobRun14,
       some .acZrl] := by decide

theorem test_decode_ac_run_size :
    [0x01, 0x12, 0x23, 0x34, 0x45, 0x56, 0x67, 0x78, 0x89, 0xFA, 0x0B, 0x1C, 0x2D, 0x3E, 0xFF].map (decodeTableWord 8)
    = [some (.acRunSize1 0), some (.acRunSize2 1), some (.acRunSize3 2), some (.acRunSize4 3), some (.acRunSize5 4), some (.acRunSize6 5),
       some (.acRunSize7 6), some (.acRunSize8 7), some (.acRunSize9 8), some (.acRunSize10 15), some (.acIllegalSize11 0),
       some (.acIllegalSize12_15 1 12), some (.acIllegalSize12_15 2 13), some (.acIllegalSize12_15 3 14),
       some (.acIllegalSize12_15 15 15)] := by decide

theorem test_decode_first_byte : decodeTableWord 16 0x00D8 = none := by decide

/-! ### The step runs a placed word (log 13) -/

theorem test_step_soi : (nextOf (step (State.reset.withFetchWord 16 0xFFD8))).map (fun s => (s.dec.pos, s.dec.seg)) = some (2, .marker) := by
  decide

theorem test_step_app14 : (nextOf (step (State.reset.withFetchWord 16 0xFFEE))).map (fun s => (s.dec.pos, s.dec.error)) = some (2, some .e1) := by
  decide

theorem test_step_run_size : (nextOf (step (State.reset.withFetchWord 8 0x31))).map (fun s => (s.dec.run, s.dec.mag, s.dec.sub)) =
    some (3, 1, .amplitude) := by decide +kernel

theorem test_step_zrl : (nextOf (step (State.reset.withFetchWord 8 0xF0))).map (fun s => (s.dec.k, s.dec.sub)) = some (17, .magnitude) := by
  decide +kernel

/-! ### Vectors of 95_test_vectors -/

/-- S2: EOI with no scan. -/
theorem test_eoi_without_scan : (nextOf (step (feeding .marker [0xFF, 0xD9]))).map (fun s => (s.dec.pos, s.dec.error)) = some (2, some .e38) := by
  decide

/-- S3, S8, S7: a restart marker, a differential frame, an arithmetic frame. -/
theorem test_refused_markers :
    ([0xD0, 0xC5, 0xC9] : List Byte).map (fun c => (nextOf (step (feeding .marker [0xFF, c]))).map fun s => s.dec.error) =
      [some (some .e2), some (some .e26), some (some .e25)] := by decide

/-- S9 to S12: DAC, DRI, DNL, EXP after their whole segment. -/
theorem test_refused_segments :
    ([(.dac, [0x00, 0x02]), (.dri, [0x00, 0x04, 0x00, 0x00]), (.dnl, [0x00, 0x04, 0x00, 0x08]), (.exp, [0x00, 0x03, 0x11])] :
      List (Seg × List Byte)).map (fun x => (nextOf (step (feeding x.1 x.2))).map fun s => (s.dec.pos, s.dec.error)) =
      [some (0, some .e25), some (0, some .e2), some (0, some .e29), some (0, some .e28)] := by decide

/-- Section 2.5: a frame before any DQT. -/
theorem test_sof_without_dqt : (nextOf (step (upd (fun d => { d with sofCode := 0xC0 })
    (feeding .sof [0x00, 0x0B, 0x08, 0x00, 0x08, 0x00, 0x08, 0x01, 0x01, 0x11, 0x00])))).map (fun s => (s.dec.pos, s.dec.error)) =
      some (0, some .e12) := by decide +kernel

/-- S24 and S25: three 1-bit codes, class 2. -/
theorem test_dht_errors :
    ([[0x00, 0x16, 0x00, 0x03] ++ List.replicate 15 0x00 ++ [0x00, 0x01, 0x02], [0x00, 0x14, 0x20, 0x01] ++ List.replicate 15 0x00 ++ [0x00]] :
      List (List Byte)).map (fun p => (nextOf (step (feeding .dht p))).map fun s => s.dec.error) =
      [some (some .e15), some (some .e14)] := by decide +kernel

/-- S27: a scan before any frame. -/
theorem test_sos_without_frame : (nextOf (step (feeding .sos [0x00, 0x08, 0x01, 0x01, 0x00, 0x00, 0x3F, 0x00]))).map (fun s => s.dec.error) =
    some (some .e16) := by decide

/-- S39 and S35: the density of a JFIF segment, a thumbnail that is not there. -/
theorem test_app0 :
    (nextOf (step (feeding .app0 [0x00, 0x10, 0x4A, 0x46, 0x49, 0x46, 0x00, 0x01, 0x02, 0x01, 0x00, 0x48, 0x00, 0x48, 0x00, 0x00]))).map
      (fun s => (s.dec.density, s.dec.pos)) = some (⟨1, 72, 72⟩, 16)
    ∧ (nextOf (step (feeding .app0 [0x00, 0x10, 0x4A, 0x46, 0x49, 0x46, 0x00, 0x01, 0x02, 0x01, 0x00, 0x48, 0x00, 0x48, 0x01, 0x01]))).map
      (fun s => s.dec.error) = some (some .e30) := by decide +kernel

/-- S38: the comment "hi". -/
theorem test_com : (nextOf (step (feeding .com [0x00, 0x04, 0x68, 0x69]))).map (fun s => s.dec.comment) = some (some [0x68, 0x69]) := by decide

/-- Section 3.3: amplitudes. -/
theorem test_amplitudes :
    [amplitudeValue 1 0, amplitudeValue 1 1, amplitudeValue 2 0, amplitudeValue 2 3, amplitudeValue 3 2, amplitudeValue 4 7,
      amplitudeValue 8 255, amplitudeValue 10 511] = [-1, 1, -3, 3, -5, -8, 255, -512] := by decide

/-- Section 3.2: two codes of STD_DC_LUM, its sentinel; the full table whose sentinel is the code of a symbol. -/
theorem test_huffman :
    [huffStep (stdDc 0) 0b010 3, huffStep (stdDc 0) 0b111111110 9, huffStep (stdDc 0) 0b111111111 9,
      huffStep (stdTable #v[0, 4, 0, 0, 0, 0, 0, 0, 0, 0, 0, 0, 0, 0, 0, 0] [0, 1, 2, 3]) 0b11 2]
      = [.symbol 1, .symbol 11, .error .e32, .error .e41] := by decide +kernel

/-- Section 3.5: conversions, under two rounding modes. -/
theorem test_colour :
    [ycbcrToRgb .nearestAway 76 85 255, ycbcrToRgb .nearestAway 255 0 0, ycbcrToRgb .truncate 150 100 200]
      = [(254, 0, 0), (76, 255, 28), (250, 108, 100)] := by decide +kernel

/-! ### Memory -/

theorem test_reset_memory : State.reset.dec.input.wf := List.Pairwise.nil

/-! ### Witnesses: the encoding, and the step -/

theorem test_witness_DecodeOfEncode :
    ∃ (i : Instr) (rest : List Byte), i.wellFormed = true ∧ i.kind = .acSymbol ∧ rest = [0x00] := ⟨.acIllegalSize12_15 0 12, _, rfl, rfl, rfl⟩

theorem test_witness_EncodeOfDecode : ∃ (k : UnitKind) (bs rest : List Byte) (i : Instr), decode k bs = .ok (i, rest) :=
  ⟨.marker, [0xFF, 0xD7, 0x01], [0x01], .rst 7, rfl⟩

theorem test_witness_StepRunsDecodedMarker :
    ∃ (s : State) (b0 c : Byte) (i : Instr),
      s.host.running = true ∧ s.dec.cancel = false ∧ s.dec.seg = .marker ∧ s.dec.pos + 2 ≤ s.dec.avail
      ∧ Memory.read s.dec.input s.dec.pos = some b0 ∧ Memory.read s.dec.input (s.dec.pos + 1) = some c ∧ decode .marker [b0, c] = .ok (i, []) :=
  ⟨feeding .marker [0xFF, 0xD8], 0xFF, 0xD8, .soi, rfl, rfl, rfl, by decide, rfl, rfl, rfl⟩

theorem test_witness_StepRunsHandler :
    (∃ (s : State) (i : Instr) (g : Seg),
      s.host.running = true ∧ s.dec.cancel = false ∧ handlerOf i = some g ∧ s.dec.seg = g ∧ (g = .sof → s.dec.sofCode = i.codeByte) ∧ g = .dqt)
    ∧ ∃ (s : State) (i : Instr) (g : Seg),
      s.host.running = true ∧ s.dec.cancel = false ∧ handlerOf i = some g ∧ s.dec.seg = g ∧ (g = .sof → s.dec.sofCode = i.codeByte) ∧ g = .sof :=
  ⟨⟨feeding .dqt [], .dqt, .dqt, rfl, rfl, rfl, rfl, by decide, rfl⟩,
    ⟨upd (fun d => { d with sofCode := 0xC2 }) (feeding .sof []), .sof2, .sof, rfl, rfl, rfl, rfl, fun _ => rfl, rfl⟩⟩

/-- The four clauses: a code found, a longer code, a code that is the sentinel, no code (at the sentinel, and at 16 bits). -/
theorem test_witness_StepRunsDecodedSymbol :
    (∃ (s : State) (d : Decoder) (c : Component) (v : Byte), readBit s.dec = .bit false d ∧ s.dec.active = some (0, c) ∧ s.dec.seg = .scan
      ∧ s.dec.sub = .magnitude ∧ lookupCode s.dec.acTables[c.ta] 0 1 = some v ∧ s.dec.acTables[c.ta].sentinel ≠ some (0, 1))
    ∧ (lookupCode (stdDc 0) 0 1 = none ∧ (stdDc 0).sentinel ≠ some (0, 1))
    ∧ (lookupCode (stdTable #v[2, 0, 0, 0, 0, 0, 0, 0, 0, 0, 0, 0, 0, 0, 0, 0] [0, 1]) 1 1).isSome = true
    ∧ (stdTable #v[2, 0, 0, 0, 0, 0, 0, 0, 0, 0, 0, 0, 0, 0, 0, 0] [0, 1]).sentinel = some (1, 1)
    ∧ (lookupCode (oneCodeTable 0) 1 1 = none ∧ (oneCodeTable 0).sentinel = some (1, 1))
    ∧ lookupCode (oneCodeTable 0) 0x8000 16 = none := by
  refine ⟨⟨oneUnit [0x7F], _, comp 1 0, 0, rfl, rfl, rfl, rfl, ?_, ?_⟩, ?_⟩ <;> decide +kernel

/-- An amplitude of two bits, at its first and at its last bit. -/
theorem test_witness_StepReadsAmplitudeBit :
    ∃ (s : State) (c : Component) (b : Bool) (d : Decoder), s.dec.seg = .scan ∧ s.dec.sub = .amplitude
      ∧ s.dec.active = some (0, c) ∧ readBit s.dec = .bit b d ∧ (s.dec.ampn + 1 < s.dec.mag ∨ s.dec.ampn + 1 = s.dec.mag) :=
  ⟨upd (fun d => { d with sub := .amplitude, mag := 2 }) (oneUnit [0x7F]), comp 1 0, false, _, rfl, rfl, rfl, rfl, .inl (by decide)⟩

theorem test_witness_StepReadsAmplitudeBit_last :
    ∃ (s : State) (c : Component) (b : Bool) (d : Decoder), s.dec.seg = .scan ∧ s.dec.sub = .amplitude
      ∧ s.dec.active = some (0, c) ∧ readBit s.dec = .bit b d ∧ s.dec.ampn + 1 = s.dec.mag :=
  ⟨upd (fun d => { d with sub := .amplitude, mag := 2, ampn := 1 }) (oneUnit [0x7F]), comp 1 0, false, _, rfl, rfl, rfl, rfl, rfl⟩

theorem test_witness_MarkerEndsEntropyData :
    ∃ (s : State) (c : Component) (b : Byte), s.host.running = true ∧ s.dec.cancel = false ∧ s.dec.seg = .scan ∧ s.dec.sub = .magnitude
      ∧ s.dec.active = some (0, c) ∧ s.dec.nbits = 0 ∧ s.dec.pos + 2 ≤ s.dec.avail ∧ Memory.read s.dec.input s.dec.pos = some 0xFF
      ∧ Memory.read s.dec.input (s.dec.pos + 1) = some b ∧ b ≠ 0 :=
  ⟨oneUnit [0xFF, 0x01], comp 1 0, 0x01, rfl, rfl, rfl, rfl, rfl, rfl, by decide, rfl, rfl, by decide⟩

/-- One byte of a marker; one byte of a length field; a declared segment one byte short; no byte of entropy data; the `FF` of a pair. -/
theorem test_witness_HoldLeavesDecoderUnchanged :
    (∃ s : State, s.dec.seg = .marker ∧ s.dec.avail < s.dec.pos + 2 ∧ s.dec.eos = false ∧ s.host.running = true)
    ∧ (∃ s : State, handlerOf .com = some s.dec.seg ∧ s.dec.avail < s.dec.pos + 2)
    ∧ (∃ (s : State) (len : Nat), handlerOf .com = some s.dec.seg ∧ Memory.be16 s.dec.input s.dec.pos = some len ∧ 2 ≤ len
        ∧ s.dec.avail < s.dec.pos + len)
    ∧ (∃ s : State, s.dec.seg = .scan ∧ s.dec.active.isSome = true ∧ s.dec.sub = .magnitude ∧ s.dec.nbits = 0 ∧ s.dec.avail ≤ s.dec.pos
        ∧ s.dec.eos = true)
    ∧ ∃ s : State, s.dec.seg = .scan ∧ s.dec.active.isSome = true ∧ s.dec.nbits = 0 ∧ Memory.read s.dec.input s.dec.pos = some 0xFF
        ∧ s.dec.avail = s.dec.pos + 1 :=
  ⟨⟨feeding .marker [0xFF], rfl, by decide, rfl, rfl⟩, ⟨feeding .com [0x00], rfl, by decide⟩,
    ⟨feeding .com [0x00, 0x03], 3, rfl, rfl, by decide, by decide⟩,
    ⟨upd (fun d => { d with eos := true }) (oneUnit []), rfl, rfl, rfl, rfl, by decide, rfl⟩, ⟨oneUnit [0xFF], rfl, rfl, rfl, rfl, rfl⟩⟩

theorem test_witness_FirstByteMustBeFF :
    ∃ (s : State) (b0 c : Byte), s.host.running = true ∧ s.dec.cancel = false ∧ s.dec.seg = .marker ∧ s.dec.pos + 2 ≤ s.dec.avail
      ∧ Memory.read s.dec.input s.dec.pos = some b0 ∧ Memory.read s.dec.input (s.dec.pos + 1) = some c ∧ b0 ≠ 0xFF :=
  ⟨feeding .marker [0xFE, 0xD8], 0xFE, 0xD8, rfl, rfl, rfl, by decide, rfl, rfl, by decide⟩

/-! ### Witnesses: markers and segments -/

theorem test_witness_SoiAndSelectingMarkers :
    ∃ (s : State) (i : Instr), handlerOf i = some .sof ∧ s.dec.seg = .marker := ⟨State.reset, .sof0, rfl, rfl⟩

theorem test_witness_EoiDeliversImage :
    (∃ (s : State) (img : Image), s.dec.scanComplete = true ∧ s.dec.img = some img) ∧ ∃ s : State, s.dec.scanComplete = false :=
  ⟨⟨upd (fun d => { d with scanComplete := true }) (threeUnit 2), _, rfl, rfl⟩, State.reset, rfl⟩

/-- Each error of R97, at the ends of its ranges of codes. -/
theorem test_witness_RefusedMarkersRaise :
    [Instr.rst 0, .rst 7, .sof5, .dhp, .sof9, .sof15, .invalid00, .reserved80_BF 0xBF, .jpg, .fillFF].map
      (fun i => (i.wellFormed, i.kind, refusalOf i.codeByte))
    = [.e2, .e2, .e26, .e26, .e25, .e25, .e1, .e1, .e1, .e1].map fun e => (true, UnitKind.marker, some e) := by decide

theorem test_witness_ShortLengthRaisesE3 :
    ∃ (s : State) (i : Instr) (len : Nat), handlerOf i = some s.dec.seg ∧ s.dec.pos + 2 ≤ s.dec.avail
      ∧ Memory.be16 s.dec.input s.dec.pos = some len ∧ len < 2 := ⟨feeding .sos [0x00, 0x01], .sos, 1, rfl, by decide, rfl, by decide⟩

theorem test_witness_DqtRaisesOnBadEntry :
    segmentAt (feeding .dqt [0x00, 0x02]).dec (quantPayload [] ++ [])
    ∧ segmentAt (feeding .dqt [0x00, 0x03, 0x10]).dec (quantPayload [] ++ [0x10]) ∧ hiNibble 0x10 ≠ 0
    ∧ segmentAt (feeding .dqt [0x00, 0x03, 0x04]).dec (quantPayload [] ++ [0x04]) ∧ hiNibble 0x04 = 0 ∧ 3 < (loNibble 0x04).toNat
    ∧ segmentAt (feeding .dqt ([0x00, 0x42, 0x03] ++ List.replicate 63 0x01)).dec (quantPayload [] ++ 0x03 :: List.replicate 63 0x01) := by
  decide +kernel

/-- Two components, the factors at both ends of their range. -/
theorem test_witness_FrameHeaderCommits :
    ∃ (s : State) (cs : List FrameSpec), modeOf .sof0 = some .baseline ∧ s.dec.seg = .sof ∧ segmentAt s.dec (framePayload 5 6 cs)
      ∧ s.dec.framePresent = false ∧ 1 ≤ cs.length ∧ cs.length ≤ 4 ∧ (cs.map FrameSpec.id).Nodup
      ∧ (∀ c ∈ cs, factorOk c.h ∧ factorOk c.v ∧ s.dec.qt[c.tq].defined = true) ∧ 6 * 5 * cs.length ≤ s.cfg.maxImageBytes := by
  refine ⟨upd withTables (feeding .sof (be16Bytes 14 ++ framePayload 5 6 [⟨1, 4, 1, 0⟩, ⟨2, 1, 4, 3⟩])), [⟨1, 4, 1, 0⟩, ⟨2, 1, 4, 3⟩], ?_⟩
  decide +kernel

/-- A frame header payload as a whole segment, with the quantization tables 0 to 3 defined. -/
def sofWith (p : List Byte) : State := upd withTables (feeding .sof (be16Bytes (p.length + 2) ++ p))

/-- Each check of R99 fails on one of these payloads, with its error, in the order of the statement's clauses (E13 apart). -/
theorem test_witness_FrameHeaderRaises :
    ([[0x08, 0x00, 0x08, 0x00, 0x08], [0x0C, 0x00, 0x08, 0x00, 0x08, 0x01], [0x07, 0x00, 0x08, 0x00, 0x08, 0x01],
      [0x08, 0x00, 0x00, 0x00, 0x08, 0x01], [0x08, 0x00, 0x08, 0x00, 0x08, 0x05], [0x08, 0x00, 0x08, 0x00, 0x08, 0x01, 0x01, 0x11],
      [0x08, 0x00, 0x08, 0x00, 0x08, 0x02, 0x01, 0x11, 0x00, 0x01, 0x11, 0x00], [0x08, 0x00, 0x08, 0x00, 0x08, 0x01, 0x01, 0x31, 0x00],
      [0x08, 0x00, 0x08, 0x00, 0x08, 0x01, 0x01, 0x11, 0x04], [0x08, 0x00, 0x08, 0x00, 0x09, 0x01, 0x01, 0x11, 0x00]] : List (List Byte)).map
        (fun p => (nextOf (exec .sof0 (sofWith p))).map fun s => s.dec.error)
      = [some (some .e3), some (some .e7), some (some .e6), some (some .e8), some (some .e9), some (some .e3), some (some .e10),
         some (some .e11), some (some .e12), some (some .e40)] := by decide +kernel

theorem test_witness_FrameHeaderRaises_segment :
    ∃ (s : State) (p : List Byte), modeOf .sof1 = some .extended ∧ s.dec.seg = .sof ∧ segmentAt s.dec p ∧ s.dec.framePresent = true :=
  ⟨upd (fun d => { d with framePresent := true }) (sofWith []), [], rfl, rfl, by decide, rfl⟩

theorem test_witness_DhtBuildsTables :
    ∃ (s : State) (e : HuffSpec), s.dec.seg = .dht ∧ (∀ x ∈ [e, e], x.ok) ∧ segmentAt s.dec (huffPayload [e, e]) := by
  refine ⟨feeding .dht (be16Bytes 38 ++ huffPayload (List.replicate 2 ⟨1, 3, #v[1, 0, 0, 0, 0, 0, 0, 0, 0, 0, 0, 0, 0, 0, 0, 0], [7]⟩)),
    ⟨1, 3, #v[1, 0, 0, 0, 0, 0, 0, 0, 0, 0, 0, 0, 0, 0, 0, 0], [7]⟩, rfl, ?_, ?_⟩
  · intro x hx
    have : x = ⟨1, 3, #v[1, 0, 0, 0, 0, 0, 0, 0, 0, 0, 0, 0, 0, 0, 0, 0], [7]⟩ := by simpa using hx
    subst this
    exact ⟨rfl, by decide⟩
  · decide +kernel

theorem test_witness_DhtRaisesOnBadEntry :
    segmentAt (feeding .dht [0x00, 0x02]).dec (huffPayload [] ++ [])
    ∧ segmentAt (feeding .dht ([0x00, 0x12] ++ List.replicate 16 0x00)).dec (huffPayload [] ++ 0x00 :: List.replicate 15 0x00)
    ∧ segmentAt (feeding .dht ([0x00, 0x13, 0x20] ++ List.replicate 16 0x00)).dec (huffPayload [] ++ 0x20 :: List.replicate 16 0x00)
    ∧ 1 < (hiNibble 0x20).toNat ∧ 3 < (loNibble 0x04).toNat
    ∧ segmentAt (feeding .dht ([0x00, 0x13, 0x13, 0x01] ++ List.replicate 15 0x00)).dec (huffPayload [] ++ 0x13 :: 0x01 :: List.replicate 15 0x00)
    ∧ (hiNibble 0x13).toNat ≤ 1 ∧ (loNibble 0x13).toNat ≤ 3
    ∧ huffBuild #v[3, 0, 0, 0, 0, 0, 0, 0, 0, 0, 0, 0, 0, 0, 0, 0] [0, 1, 2] = none := by decide +kernel

/-- The frame's two components in the other order. -/
theorem test_witness_ScanHeaderCommits :
    ∃ s : State, s.dec.seg = .sos ∧ segmentAt s.dec (scanPayload [⟨2, 0, 3⟩, ⟨1, 3, 0⟩]) ∧ s.dec.framePresent = true
      ∧ s.dec.scanPresent = false ∧ s.dec.mode = .baseline ∧ s.dec.comps.length = s.dec.nf ∧ s.dec.nf = 2
      ∧ (s.dec.comps.map Component.id).Nodup ∧ ([1, 0] : List Nat).Nodup
      ∧ (s.dec.comps[1]?.map Component.id) = some 2 ∧ (s.dec.comps[0]?.map Component.id) = some 1
      ∧ (∀ t : Fin 4, s.dec.dcTables[t].defined = true ∧ s.dec.acTables[t].defined = true) := by
  refine ⟨upd framed (feeding .sos (be16Bytes 10 ++ scanPayload [⟨2, 0, 3⟩, ⟨1, 3, 0⟩])), ?_⟩
  decide +kernel

/-- A scan header payload as a whole segment, after a two-component frame of a mode. -/
def sosWith (mode : Mode) (scanPresent : Bool) (p : List Byte) : State :=
  upd (fun d => { framed d with mode := mode, scanPresent := scanPresent }) (feeding .sos (be16Bytes (p.length + 2) ++ p))

/-- Each check of R102 fails on one of these, with its error, in the order of the statement's clauses (E16 apart). -/
theorem test_witness_ScanHeaderRaises :
    ([(.baseline, true, []), (.extended, false, []), (.progressive, false, []), (.lossless, false, []), (.baseline, false, []),
      (.baseline, false, [0x01]), (.baseline, false, [0x02]), (.baseline, false, [0x02, 0x09, 0x00, 0x02, 0x00, 0x00, 0x3F, 0x00]),
      (.baseline, false, [0x02, 0x01, 0x00, 0x01, 0x00, 0x00, 0x3F, 0x00]), (.baseline, false, [0x02, 0x01, 0x00, 0x02, 0x40, 0x00, 0x3F, 0x00]),
      (.baseline, false, [0x02, 0x01, 0x00, 0x02, 0x00, 0x00, 0x3F, 0x01])] : List (Mode × Bool × List Byte)).map
        (fun x => (nextOf (exec .sos (sosWith x.1 x.2.1 x.2.2))).map fun s => s.dec.error)
      = [some (some .e24), some (some .e20), some (some .e21), some (some .e22), some (some .e3), some (some .e17), some (some .e3),
         some (some .e18), some (some .e18), some (some .e19), some (some .e23)] := by decide +kernel

theorem test_witness_ScanHeaderRaises_segment :
    ∃ (s : State) (p : List Byte), s.dec.seg = .sos ∧ segmentAt s.dec p ∧ (s.dec.comps.map Component.id).Nodup ∧ s.dec.framePresent = false :=
  ⟨feeding .sos [0x00, 0x02], [], rfl, by decide, by decide, rfl⟩

/-- A JFIF header without and with room for its thumbnail, a short one, another APP0, an empty comment. -/
theorem test_witness_App0AndComSegments :
    segmentAt (feeding .app0 ([0x00, 0x10, 0x4A, 0x46, 0x49, 0x46] ++ List.replicate 10 0x00)).dec ([0x4A, 0x46, 0x49, 0x46] ++ List.replicate 10 0x00)
    ∧ segmentAt (feeding .app0 [0x00, 0x07, 0x4A, 0x46, 0x49, 0x46, 0x00]).dec [0x4A, 0x46, 0x49, 0x46, 0x00]
    ∧ segmentAt (feeding .app0 [0x00, 0x02]).dec [] ∧ segmentAt (feeding .com [0x00, 0x02]).dec [] := by decide +kernel

theorem test_witness_RefusedSegmentsRaise :
    ∀ g ∈ [Seg.dac, .dnl, .dri, .exp], (feeding g [0x00, 0x02]).dec.seg = g ∧ segmentAt (feeding g [0x00, 0x02]).dec [] := by decide

/-! ### Witnesses: symbols and coefficients -/

theorem test_witness_DcSymbolsSetMagnitude :
    [Instr.dcSize0, .dcSize11, .dcIllegal0C_0F 0x0C, .dcIllegal80_FF 0xFF].map (fun i => (i.wellFormed, i.kind, i.codeByte.toNat))
      = [(true, .dcSymbol, 0), (true, .dcSymbol, 11), (true, .dcSymbol, 12), (true, .dcSymbol, 255)] := by decide

theorem test_witness_AcSymbolsSetRunAndMagnitude :
    [Instr.acRunSize1 0, .acRunSize10 15, .acEob, .acZrl, .acEobRun1, .acEobRun14, .acIllegalSize11 0, .acIllegalSize12_15 15 15].map
      (fun i => (i.wellFormed, i.kind, i.codeByte.toNat / 16, i.codeByte.toNat % 16))
      = [(true, .acSymbol, 0, 1), (true, .acSymbol, 15, 10), (true, .acSymbol, 0, 0), (true, .acSymbol, 15, 0), (true, .acSymbol, 1, 0),
         (true, .acSymbol, 14, 0), (true, .acSymbol, 0, 11), (true, .acSymbol, 15, 15)] := by decide

theorem test_witness_BitsComeMostSignificantFirst :
    (∃ d : Decoder, d.nbits = 0 ∧ Memory.read d.input d.pos = some 0xFE ∧ d.pos + 1 ≤ d.avail)
    ∧ ∃ d : Decoder, d.nbits = 0 ∧ Memory.read d.input d.pos = some 0xFF ∧ d.pos + 2 ≤ d.avail
      ∧ Memory.read d.input (d.pos + 1) = some 0x00 :=
  ⟨⟨(feeding .scan [0xFE]).dec, rfl, rfl, by decide⟩, (feeding .scan [0xFF, 0x00]).dec, rfl, rfl, by decide, rfl⟩

theorem test_witness_AmplitudesInvert : ∃ m a : Nat, 1 ≤ m ∧ a < 2 ^ m := ⟨1, 1, by decide, by decide⟩

/-- The DC coefficient of a data unit whose amplitude is read, with a predictor and a table entry. -/
def dcUnit (p : Int) (q : Byte) : State :=
  upd (fun d => { d with
    k := 0, sub := .amplitude, mag := 1, ampn := 1, amp := 1, comps := [{ comp 1 0 with pred := p }]
    qt := d.qt.set 0 ⟨true, Vector.replicate 64 q⟩ }) (oneUnit [])

/-- In range; the predictor out of range by one; the product out of range. -/
theorem test_witness_DcCoefficientIsPredicted :
    (∃ c : Component, (dcUnit 0 1).dec.active = some (0, c) ∧ (dcUnit 0 1).dec.seg = .scan ∧ (dcUnit 0 1).dec.sub = .amplitude
      ∧ (dcUnit 0 1).dec.ampn = (dcUnit 0 1).dec.mag ∧ (dcUnit 0 1).dec.k = 0 ∧ (dcUnit 0 1).dec.run = 0
      ∧ inI32 (c.pred + amplitudeValue 1 1) = true ∧ inI32 ((c.pred + amplitudeValue 1 1) * 1) = true)
    ∧ (∃ c : Component, (dcUnit 2147483647 1).dec.active = some (0, c) ∧ inI32 (c.pred + amplitudeValue 1 1) = false)
    ∧ ∃ c : Component, (dcUnit 1073741823 2).dec.active = some (0, c) ∧ inI32 (c.pred + amplitudeValue 1 1) = true
      ∧ inI32 ((c.pred + amplitudeValue 1 1) * (((dcUnit 1073741823 2).dec.qt[c.tq].q[0]).toNat : Int)) = false :=
  ⟨⟨_, rfl, rfl, rfl, rfl, rfl, rfl, by decide, by decide⟩, ⟨_, rfl, by decide⟩, ⟨_, rfl, by decide, by decide⟩⟩

/-- An AC coefficient whose amplitude is read, at an index with a run before it. -/
def acUnit (k run : Nat) : State := upd (fun d => { d with k := k, run := run, sub := .amplitude, mag := 10, ampn := 10, amp := 1023 }) (oneUnit [])

/-- Room to spare, the 64th coefficient, and one past it. -/
theorem test_witness_AcCoefficientIsPlaced :
    ∀ x ∈ [(1, 0), (1, 15), (62, 0), (63, 0), (63, 1)], (acUnit x.1 x.2).dec.active.isSome = true ∧ (acUnit x.1 x.2).dec.seg = .scan
      ∧ (acUnit x.1 x.2).dec.sub = .amplitude ∧ (acUnit x.1 x.2).dec.ampn = (acUnit x.1 x.2).dec.mag ∧ 1 ≤ (acUnit x.1 x.2).dec.k
      ∧ (acUnit x.1 x.2).dec.amp.toNat < 2 ^ (acUnit x.1 x.2).dec.mag ∧ (acUnit x.1 x.2).dec.mag ≤ 10 := by decide

theorem test_witness_EobZeroesTheRest :
    ∃ (s : State) (c : Component), s.dec.seg = .scan ∧ s.dec.sub = .endOfBlockCount ∧ s.dec.active = some (0, c) ∧ s.dec.k ≤ 63 :=
  ⟨upd (fun d => { d with sub := .endOfBlockCount, k := 63 }) (oneUnit []), _, rfl, rfl, rfl, by decide⟩

/-! ### Witnesses: states that meet the invariant -/

/-- A state in the middle of a scan meets the invariant: one component, nothing placed yet. -/
theorem test_oneUnit_safe : (oneUnit []).Safe where
  input := ⟨List.Pairwise.nil, fun a => ⟨fun h => (by cases h), fun h => absurd h (Nat.not_lt_zero a)⟩, Nat.le_refl 0⟩
  ranges := by constructor <;> decide
  completion := by constructor <;> decide
  frame := by
    refine ⟨by decide, by decide, fun j c h => ?_, by decide +kernel, by decide, by decide +kernel, by decide, fun _ => ?_, by decide, by decide⟩
    · match j with
      | 0 => cases h; rfl
      | j + 1 => cases h
    · exact ⟨_, rfl, rfl, rfl, rfl, List.Pairwise.nil, fun o h => (by cases h)⟩
  scan := by
    refine ⟨by decide, by decide, by decide +kernel, by decide, by decide, fun _ q j c hq hj => ?_⟩
    match q with
    | 0 => cases hq; cases hj; exact ⟨fun _ => by decide, fun _ => rfl⟩
    | q + 1 => cases hq
  coverage := by
    refine ⟨fun _ img _ q j c hq hj x y hx hy hb => ?_, fun h => (by cases h)⟩
    match q with
    | q + 1 => cases hq
    | 0 =>
      cases hq; cases hj
      rcases hb with hb | ⟨_, hb | ⟨_, hb⟩⟩
      · exact absurd hb (Nat.not_lt_zero _)
      · exact absurd hb (Nat.not_lt_zero _)
      · exact absurd hb (Nat.not_lt_zero _)

/-- So does the scan of three components at each of them, with the components before it placed. -/
theorem test_threeUnit_safe (p : Nat) (hp : p < 3) : (threeUnit p).Safe where
  input := ⟨List.Pairwise.nil, fun a => ⟨fun h => (by cases h), fun h => absurd h (Nat.not_lt_zero a)⟩, Nat.le_refl 0⟩
  ranges := by match p, hp with | 0, _ | 1, _ | 2, _ => constructor <;> decide +kernel
  completion := by constructor <;> intros <;> first | rfl | contradiction
  frame := by
    refine ⟨fun h => (by cases h), fun _ => (by match p, hp with | 0, _ | 1, _ | 2, _ => decide +kernel), fun j c h => ?_, ?_,
      fun _ => (by match p, hp with | 0, _ | 1, _ | 2, _ => decide +kernel), ?_, fun _ => (by match p, hp with | 0, _ | 1, _ | 2, _ => decide +kernel), fun _ => ?_,
      fun _ => (by match p, hp with | 0, _ | 1, _ | 2, _ => decide +kernel), fun h => (by cases h)⟩
    · match j with
      | 0 | 1 | 2 => cases h; rfl
      | j + 3 => cases h
    · show ∀ c ∈ [comp 1 0, comp 2 1, comp 3 2], factorOk c.h ∧ factorOk c.v ∧ c.h ≤ 1 ∧ c.v ≤ 1
      decide +kernel
    · match p, hp with | 0, _ | 1, _ | 2, _ => decide +kernel
    · refine ⟨_, rfl, rfl, rfl, rfl, ?_, ?_⟩
      · match p, hp with | 0, _ | 1, _ | 2, _ => decide
      · intro o ho
        match p, hp with
        | 0, _ => cases ho
        | 1, _ =>
          match o with
          | 0 => decide
          | o + 1 => cases ho
        | 2, _ =>
          match o with
          | 0 | 1 => decide
          | o + 2 => cases ho
  scan := by
    refine ⟨fun _ => ?_, fun h => (by cases h), fun _ => ?_, fun _ => ?_, fun _ => .inl rfl, fun _ q j c hq hj => ?_⟩
    · match p, hp with | 0, _ | 1, _ | 2, _ => decide
    · match p, hp with | 0, _ | 1, _ | 2, _ => decide +kernel
    · match p, hp with | 0, _ | 1, _ | 2, _ => decide
    · match q with
      | 0 | 1 | 2 => cases hq; cases hj; exact ⟨fun _ => by decide, fun _ => rfl⟩
      | q + 3 => cases hq
  coverage := by
    refine ⟨fun _ img himg q j c hq hj x y hx hy hb => ?_, fun h => (by cases h)⟩
    have hx0 : x = 0 := by have : x < 1 := hx; omega
    have hy0 : y = 0 := by have : y < 1 := hy; omega
    subst hx0 hy0
    have hqp : q < p := by
      rcases hb with hb | ⟨_, hb | ⟨_, hb⟩⟩
      · exact absurd hb (Nat.not_lt_zero _)
      · exact hb
      · match q with
        | 0 | 1 | 2 => cases hq; cases hj; exact absurd hb (Nat.not_lt_zero _)
        | q + 3 => cases hq
    cases himg
    match q with
    | q + 3 => cases hq
    | 0 | 1 | 2 =>
      cases hq; cases hj
      match p, hp, hqp with
      | 1, _, _ | 2, _, _ => first | decide | (exfalso; omega)

/-- A state at which the completion of a data unit runs. -/
def completing (s : State) : State := upd (fun d => { d with k := 64 }) s

/-- It meets the premise of the statements about completion when the scan state it comes from meets the invariant. -/
theorem test_completing_safe (s : State) (h : s.Safe) :
    ((completing s).withDec { (completing s).dec with k := 0 }).Safe where
  input := ⟨h.1.1, h.1.2, h.1.3⟩
  ranges := ⟨h.2.1, Nat.zero_le _, h.2.3, h.2.4, h.2.5, h.2.6, h.2.7, h.2.8, h.2.9, h.2.10⟩
  completion := ⟨h.3.1, h.3.2, h.3.3, h.3.4⟩
  frame := ⟨h.4.1, h.4.2, h.4.3, h.4.4, h.4.5, h.4.6, h.4.7, h.4.8, h.4.9, h.4.10⟩
  scan := ⟨h.5.1, h.5.2, h.5.3, fun hs => ⟨(h.5.4 hs).1, (h.5.4 hs).2.1, (h.5.4 hs).2.2.1, Nat.zero_le _, (h.5.4 hs).2.2.2.2⟩, h.5.5, h.5.6⟩
  coverage := ⟨h.6.1, h.6.2⟩

/-- The last data unit of the image, and one before it. -/
theorem test_witness_CursorsCountDataUnits :
    (∃ (s : State) (c : Component), (s.withDec { s.dec with k := 0 }).Safe ∧ s.dec.k = 64 ∧ s.dec.seg = .scan
      ∧ s.dec.active = some (2, c) ∧ unitIndex s.dec c.du + 1 = s.dec.mcuTotal * unitsPerMcu s.dec)
    ∧ ∃ (s : State) (c : Component), (s.withDec { s.dec with k := 0 }).Safe ∧ s.dec.k = 64 ∧ s.dec.seg = .scan
      ∧ s.dec.active = some (1, c) ∧ unitIndex s.dec c.du + 1 ≠ s.dec.mcuTotal * unitsPerMcu s.dec :=
  ⟨⟨completing (threeUnit 2), _, test_completing_safe _ (test_threeUnit_safe 2 (by decide)), rfl, rfl, rfl, by decide⟩,
    completing (threeUnit 1), _, test_completing_safe _ (test_threeUnit_safe 1 (by decide)), rfl, rfl, rfl, by decide⟩

/-- Both ends of the range. -/
theorem test_witness_DcOnlyBlockIsFlat :
    cfg0.dctImpl = .reference ∧ cfg0.idctRound ≠ .truncate ∧ ∀ m ∈ [(-256 : Int), 255], -256 ≤ m ∧ m ≤ 255 := by decide

/-! ### Witnesses: Huffman tables -/

theorem test_witness_BuiltCodesArePrefixFree :
    ∃ (counts : Vector Byte 16) (syms : List Byte) (t : HuffTable), syms.length = countTotal counts ∧ huffBuild counts syms = some t ∧ t.codes ≠ [] :=
  ⟨#v[0, 4, 0, 0, 0, 0, 0, 0, 0, 0, 0, 0, 0, 0, 0, 0], [0, 1, 2, 3], _, rfl, rfl, by decide⟩

/-- A code that is not the sentinel, and one that is. -/
theorem test_witness_CodesDecodeToTheirSymbols :
    ∃ (counts : Vector Byte 16) (syms : List Byte) (t : HuffTable) (c c' : HuffCode), syms.length = countTotal counts
      ∧ huffBuild counts syms = some t ∧ c ∈ t.codes ∧ t.sentinel ≠ some (c.code, c.width) ∧ c' ∈ t.codes ∧ t.sentinel = some (c'.code, c'.width) :=
  ⟨#v[0, 4, 0, 0, 0, 0, 0, 0, 0, 0, 0, 0, 0, 0, 0, 0], [0, 1, 2, 3], _, ⟨2, 0b10, 2⟩, ⟨3, 0b11, 2⟩, rfl, rfl, by decide, by decide, by decide, by decide⟩

/-! ### Witnesses: errors, the host, runs -/

theorem test_witness_ErrorEntryWrites : (∃ s : State, s.dec.completed = false) ∧ ∃ s : State, s.dec.completed = true :=
  ⟨⟨State.reset, rfl⟩, upd (fun d => { d with completed := true }) State.reset, rfl⟩

theorem test_witness_CompletionIsDeliveredOnce : ∃ s t : State, step s = .next t ∧ t.host.events = s.host.events ++ [.error .e38] :=
  ⟨feeding .marker [0xFF, 0xD9], _, rfl, rfl⟩

theorem test_witness_FinalStatesAreFinal :
    ∃ s t : State, s.dec.seg.final = true ∧ step s = .next t
      ∧ (s.host.running = false → ∀ ops, s.host.pending ≠ .construct :: ops ∧ ∀ bs, s.host.pending ≠ .decodeSync bs :: ops) :=
  ⟨feeding .done [], _, rfl, rfl, fun h => (by cases h)⟩

/-- An accepted feed, an empty one after end of stream, one in a final state, one with bytes after end of stream. -/
theorem test_witness_FeedAppendsBytes :
    (∃ s : State, s.host.running = false ∧ s.host.pending = [.feed [0xFF] true] ∧ s.dec.seg.final = false ∧ s.dec.eos = false)
    ∧ (∃ s : State, s.host.running = false ∧ s.host.pending = [.feed [] false] ∧ s.dec.seg.final = false ∧ s.dec.eos = true)
    ∧ (∃ s : State, s.host.running = false ∧ s.host.pending = [.feed [] false] ∧ s.dec.seg.final = true)
    ∧ ∃ s : State, s.host.running = false ∧ s.host.pending = [.feed [0xFF] false] ∧ s.dec.eos = true :=
  ⟨⟨asked (.feed [0xFF] true) Decoder.reset, rfl, rfl, rfl, rfl⟩,
    ⟨asked (.feed [] false) { Decoder.reset with eos := true }, rfl, rfl, rfl, rfl⟩,
    ⟨asked (.feed [] false) { Decoder.reset with seg := .done }, rfl, rfl, rfl⟩,
    ⟨asked (.feed [0xFF] false) { Decoder.reset with eos := true }, rfl, rfl, rfl⟩⟩

theorem test_witness_ReturnsAndCancellation :
    (∃ s : State, s.host.running = true ∧ s.dec.seg = .done) ∧ (∃ s : State, s.host.running = true ∧ s.dec.seg = .error)
    ∧ (∃ s : State, s.host.running = true ∧ s.dec.seg.final = false ∧ s.dec.cancel = true)
    ∧ (∃ s : State, s.host.running = false ∧ s.host.pending = [.cancel] ∧ s.dec.seg.final = true)
    ∧ ∃ s : State, s.host.running = false ∧ s.host.pending = [.cancel] ∧ s.dec.seg.final = false :=
  ⟨⟨feeding .done [], rfl, rfl⟩, ⟨feeding .error [], rfl, rfl⟩, ⟨upd (fun d => { d with cancel := true }) (feeding .marker []), rfl, rfl, rfl⟩,
    ⟨asked .cancel { Decoder.reset with seg := .done }, rfl, rfl, rfl⟩, ⟨asked .cancel Decoder.reset, rfl, rfl, rfl⟩⟩

theorem test_witness_QueriesOnlyReport :
    ∀ op ∈ [HostOp.getImage, .getError, .getComment, .consumed], (asked op Decoder.reset).host.running = false
      ∧ (asked op Decoder.reset).host.pending = [op] := by decide

theorem test_witness_ConstructGivesResetValues :
    (∃ s t : State, s.host.running = false ∧ s.host.pending = [.construct] ∧ step s = .next t)
    ∧ (∃ s : State, s.host.running = false ∧ s.host.pending = [.decodeSync [0xFF, 0xD8]] ∧ s.dec.seg = .scan)
    ∧ (∃ s t : State, s.host.running = true ∧ s.dec.eos = true ∧ step s = .next t ∧ t.host.running = false)
    ∧ ∃ s : State, s.host.running = false ∧ s.host.pending = [.constructEncoder ⟨1, 1, 1, [0]⟩] ∧ s.enc.isSome = true :=
  ⟨⟨asked .construct (threeUnit 2).dec, _, rfl, rfl, rfl⟩, ⟨asked (.decodeSync [0xFF, 0xD8]) (threeUnit 2).dec, rfl, rfl, rfl⟩,
    ⟨upd (fun d => { d with eos := true }) (feeding .done []), _, rfl, rfl, rfl, rfl⟩,
    ⟨{ asked (.constructEncoder ⟨1, 1, 1, [0]⟩) Decoder.reset with enc := some (Encoder.construct ⟨2, 2, 1, []⟩) }, rfl, rfl, rfl⟩⟩

/-- A marker without a handler, one that completes the decoding, one that selects a handler, and a symbol. -/
theorem test_witness_InstructionsWriteOnlyTheirRegisters :
    (∃ (i : Instr) (s t : State), exec i s = .next t ∧ i.kind = .marker ∧ i ≠ .sos ∧ i ≠ .dqt ∧ modeOf i = none ∧ handlerOf i = none ∧ i ≠ .eoi)
    ∧ (∃ (i : Instr) (s t : State), exec i s = .next t ∧ s.dec.completed = false ∧ t.dec.completed = true)
    ∧ (∃ (i : Instr) (s t : State), exec i s = .next t ∧ handlerOf i ≠ none ∧ modeOf i ≠ none)
    ∧ ∃ (i : Instr) (s t : State), exec i s = .next t ∧ i.kind ≠ .marker ∧ t.dec.sub ≠ s.dec.sub :=
  ⟨⟨.soi, State.reset, _, rfl, rfl, by decide, by decide, rfl, rfl, by decide⟩, ⟨.eoi, feeding .marker [], _, rfl, rfl, rfl⟩,
    ⟨.sof2, feeding .marker [], _, rfl, by decide, by decide⟩, ⟨.acEob, oneUnit [], _, rfl, by decide, by decide⟩⟩

/-- With a component and an image, and without an image. -/
theorem test_witness_ScanKeepsTablesAndHeaders :
    (∃ (s t : State) (c : Component) (img : Image), s.host.running = true ∧ s.dec.seg = .scan ∧ step s = .next t
      ∧ s.dec.comps[0]? = some c ∧ s.dec.img = some img)
    ∧ ∃ s t : State, s.host.running = true ∧ s.dec.seg = .scan ∧ step s = .next t ∧ s.dec.img = none :=
  ⟨⟨oneUnit [0xFF, 0xD9], _, _, _, rfl, rfl, rfl, rfl, rfl⟩,
    upd (fun d => { d with img := none }) (oneUnit [0xFF, 0xD9]), _, rfl, rfl, rfl, rfl⟩

theorem test_witness_PositionNeverDecreases : ∃ s t : State, s.host.running = true ∧ step s = .next t :=
  ⟨feeding .marker [0xFF, 0xD8], _, rfl, rfl⟩

theorem test_witness_StepKeepsSafety : ∃ s t : State, s.Safe ∧ step s = .next t := ⟨oneUnit [], _, test_oneUnit_safe, rfl⟩

theorem test_witness_SafeStatesNeverFault : ∃ s : State, s.Safe ∧ s.host.running = true := ⟨threeUnit 1, test_threeUnit_safe 1 (by decide), rfl⟩

theorem test_witness_StepKeepsCanonicalMemory :
    ∃ s t : State, s.dec.input.wf ∧ (∀ img, s.dec.img = some img → img.pix.wf) ∧ step s = .next t :=
  ⟨asked (.feed [0xFF, 0xD8] false) Decoder.reset, _, List.Pairwise.nil, fun _ h => (by cases h), rfl⟩

theorem test_witness_MoreInputChangesNothing :
    ∃ s t : State, s.host.running = true ∧ step s = .next t ∧ t.host.running = true ∧ s.dec.eos = false :=
  ⟨feeding .marker [0xFF, 0xD8], _, rfl, rfl, rfl, rfl⟩

/-- A scan state with no Feed running, to which one marker comes in two pieces. -/
theorem test_witness_ChunksGiveTheSameResult :
    ∃ s whole first second : State, s.Safe ∧ s.host.running = false ∧ s.dec.seg.final = false ∧ s.dec.eos = false
      ∧ Host.Core.run Sys2Proof.core 4 (hostFeed ([0xFF] ++ [0xD8]) false s) = .next whole ∧ whole.host.running = false
      ∧ Host.Core.run Sys2Proof.core 2 (hostFeed [0xFF] false s) = .next first ∧ first.host.running = false
      ∧ Host.Core.run Sys2Proof.core 4 (hostFeed [0xD8] false first) = .next second ∧ second.host.running = false ∧ s.host.pending = [] := by
  let s : State := { oneUnit [] with host := HostPort.reset }
  have h : s.Safe := ⟨test_oneUnit_safe.1, test_oneUnit_safe.2, test_oneUnit_safe.3, test_oneUnit_safe.4, test_oneUnit_safe.5, test_oneUnit_safe.6⟩
  exact ⟨s, _, _, _, h, rfl, rfl, rfl, rfl, rfl, rfl, rfl, rfl, rfl, rfl⟩

theorem test_witness_FeedAlwaysReturns : ∃ s : State, s.Safe ∧ s.host.running = true := ⟨oneUnit [], test_oneUnit_safe, rfl⟩

/-! ### Witnesses: the encoder -/

theorem test_witness_UnencodableImagesAreRefused :
    ∃ (s : State) (e : Encoder), s.host.running = false ∧ s.host.pending = [.encode] ∧ s.enc = some e ∧ ¬1 ≤ e.src.width :=
  ⟨{ asked .encode Decoder.reset with enc := some (Encoder.construct ⟨0, 8, 1, []⟩) }, _, rfl, rfl, rfl, by decide⟩

theorem test_witness_BitWriterKeepsEveryBit :
    (∃ e : Encoder, e.wacc.length < 8 ∧ e.wacc = []) ∧ ∃ e : Encoder, e.wacc.length < 8 ∧ e.wacc ≠ [] :=
  ⟨⟨Encoder.construct ⟨0, 0, 0, []⟩, by decide, rfl⟩,
    ⟨{ Encoder.construct ⟨0, 0, 0, []⟩ with wacc := List.replicate 7 true }, by decide, by decide⟩⟩

/-! ### Whole tables and transforms, which take the kernel longest, and the witnesses that rest on them -/

/-- S13 to S16: length 1, precision 1, destination 4, a truncated entry. -/
theorem test_dqt_errors :
    ([(.com, [0x00, 0x01]), (.dqt, [0x00, 0x43, 0x10] ++ List.replicate 64 0x01), (.dqt, [0x00, 0x43, 0x04] ++ List.replicate 64 0x01),
      (.dqt, [0x00, 0x42, 0x00] ++ List.replicate 63 0x01)] : List (Seg × List Byte)).map
        (fun x => (nextOf (step (feeding x.1 x.2))).map fun s => s.dec.error) =
      [some (some .e3), some (some .e4), some (some .e5), some (some .e3)] := by decide +kernel

/-- Two entries of one destination. -/
theorem test_witness_DqtLoadsTables :
    ∃ (s : State) (es : List (Fin 4 × Vector Byte 64)), s.dec.seg = .dqt ∧ es ≠ [] ∧ segmentAt s.dec (quantPayload es) := by
  refine ⟨feeding .dqt (be16Bytes 132 ++ quantPayload [(3, Vector.replicate 64 1), (3, Vector.replicate 64 2)]),
    [(3, Vector.replicate 64 1), (3, Vector.replicate 64 2)], rfl, by simp, ?_, ?_, ?_⟩ <;> decide +kernel

/-- Section 2.4: the block of zeros. -/
theorem test_idct_zero : (inverseDct cfg0 (Vector.replicate 64 0)).map (F64.round cfg0.idctRound) = Vector.replicate 64 0 := by decide +kernel

/-- EP1: the image of 64 samples of 128. -/
theorem test_encode_grey : (match Encoder.encode cfg0 (Encoder.construct ⟨8, 8, 1, List.replicate 64 128⟩) with
    | .ok e => (e.out.length, e.out.drop 324)
    | .refuse _ _ => (0, [])) = (327, [0x2B, 0xFF, 0xD9]) := by decide +kernel

theorem test_flat_samples : idctSamples cfg0 (Vector.replicate 64 0) = some (Vector.replicate 64 128) := by
  have h := test_idct_zero
  unfold idctSamples
  simp only [h]
  decide +kernel

/-- A DC coefficient of 500000 leaves 16 bits. -/
theorem test_dc_overflow :
    32767 < F64.round cfg0.idctRound (inverseDct cfg0 ((Vector.replicate 64 0).set 0 500000))[0] ∧ cfg0.idctOverflow = .fault := by
  decide +kernel

theorem test_samples_overflow : idctSamples cfg0 ((Vector.replicate 64 0).set 0 500000) = none := by
  obtain ⟨h, ho⟩ := test_dc_overflow
  unfold idctSamples
  simp only [ho]
  refine if_pos (List.any_eq_true.2 ⟨_, Vector.mem_toList_iff.2 (Vector.getElem_mem (i := 0) (by decide)), ?_⟩)
  rw [Vector.getElem_map]
  exact Bool.or_eq_true_iff.2 (.inr (decide_eq_true h))

theorem test_witness_PlacementWritesItsPixels :
    (∃ (s : State) (c : Component), s.dec.active = some (0, c) ∧ idctSamples s.cfg c.scratch = none)
    ∧ ∃ (s : State) (c : Component) (img : Image) (samples : Vector Byte 64), (s.withDec { s.dec with k := 0 }).Safe ∧ s.dec.k = 64
      ∧ s.dec.seg = .scan ∧ s.dec.active = some (0, c) ∧ s.dec.img = some img ∧ idctSamples s.cfg c.scratch = some samples
      ∧ ¬(s.dec.nf = 3 ∧ s.dec.scanPos + 1 = s.dec.ns) :=
  ⟨⟨upd (fun d => { d with comps := [{ comp 1 0 with scratch := (Vector.replicate 64 0).set 0 500000 }] }) (completing (oneUnit [])), _, rfl,
      test_samples_overflow⟩,
    completing (oneUnit []), comp 1 0, _, _, test_completing_safe _ test_oneUnit_safe, rfl, rfl, rfl, rfl, test_flat_samples, by decide⟩

theorem test_witness_PlacementConvertsItsPixels :
    ∃ (s : State) (c : Component) (img : Image) (samples : Vector Byte 64), (s.withDec { s.dec with k := 0 }).Safe ∧ s.dec.k = 64
      ∧ s.dec.seg = .scan ∧ s.dec.active = some (2, c) ∧ s.dec.img = some img ∧ idctSamples s.cfg c.scratch = some samples ∧ s.dec.nf = 3
      ∧ s.dec.scanPos + 1 = s.dec.ns :=
  ⟨completing (threeUnit 2), comp 3 2, _, _, test_completing_safe _ (test_threeUnit_safe 2 (by decide)), rfl, rfl, rfl, rfl, test_flat_samples, rfl, rfl⟩

/-- The zero block is in range; a DC coefficient of 500000 is not, under either `IDCT_OVERFLOW`. -/
theorem test_witness_SampleRangeIsChecked :
    (∃ n : Fin 64 → Int, (∀ i, n i = F64.round cfg0.idctRound (inverseDct cfg0 (Vector.replicate 64 0))[i]) ∧ ∀ i, -32768 ≤ n i ∧ n i ≤ 32767)
    ∧ (∃ f : Vector Int 64, 32767 < F64.round cfg0.idctRound (inverseDct cfg0 f)[0] ∧ cfg0.idctOverflow = .fault)
    ∧ (⟨.nearestAway, .saturate, .reference, .nearestAway, .nearestAway, false, 64⟩ : Params).idctOverflow = .saturate := by
  refine ⟨⟨fun i => F64.round cfg0.idctRound (inverseDct cfg0 (Vector.replicate 64 0))[i], fun _ => rfl, fun i => ?_⟩, ⟨_, test_dc_overflow⟩, rfl⟩
  have h : ((inverseDct cfg0 (Vector.replicate 64 0)).map (F64.round cfg0.idctRound))[i] = 0 := by rw [test_idct_zero]; simp
  simp only [Fin.getElem_fin, Vector.getElem_map] at h ⊢
  rw [h]
  decide

/-- 45_encoder R178's example: a zero difference, then 39 zeros, a 1 and a rest of zeros. -/
theorem test_encode_runs : (match (encodeDc 0 0 (Encoder.construct ⟨8, 8, 1, []⟩)).andThen
      (encodeAc 0 (List.replicate 40 0 ++ [1] ++ List.replicate 23 0)) with
    | .ok e => (e.out, e.wacc)
    | .refuse _ _ => ([], [])) = ([0x3F, 0xCF, 0xF9, 0xFA], [true, true, false, true, false]) := by decide +kernel

/-- The examples of R168, R169 and R174. -/
theorem test_stream_header :
    ((streamHeader 8 8 1).drop 20).take 20
      = [0xFF, 0xDB, 0x00, 0x43, 0x00, 0x10, 0x0B, 0x0C, 0x0E, 0x0C, 0x0A, 0x10, 0x0E, 0x0D, 0x0E, 0x12, 0x11, 0x10, 0x13, 0x18]
    ∧ ((streamHeader 8 8 1).drop 89).take 13 = [0xFF, 0xC0, 0x00, 0x0B, 0x08, 0x00, 0x08, 0x00, 0x08, 0x01, 0x01, 0x11, 0x00]
    ∧ (streamHeader 8 8 1).drop 314 = [0xFF, 0xDA, 0x00, 0x08, 0x01, 0x01, 0x00, 0x00, 0x3F, 0x00] := by decide +kernel

/-- A host that asks for the encoding of the image of 64 samples of 128. -/
def askingGrey : State := { asked .encode Decoder.reset with enc := some (Encoder.construct ⟨8, 8, 1, List.replicate 64 128⟩) }

/-- Its one block has no coefficient, and so no DC difference, above the bound: both clauses' hypotheses are met. -/
theorem test_witness_EncodedStreamLayout :
    ∃ (s : State) (e : Encoder), s.host.running = false ∧ s.host.pending = [.encode] ∧ s.enc = some e
      ∧ (1 ≤ e.src.width ∧ 1 ≤ e.src.height ∧ 1 ≤ e.src.ncomp ∧ e.src.pix.length = e.src.width * e.src.height * e.src.ncomp)
      ∧ (∀ k : Fin 64, bitlen (sourceCoef s.cfg (encodedSource s.cfg e.src) 0 k) ≤ 10)
      ∧ ∃ e', Encoder.encode s.cfg e = .ok e' := by
  refine ⟨askingGrey, Encoder.construct ⟨8, 8, 1, List.replicate 64 128⟩, rfl, rfl, rfl, by decide, fun k => ?_, ?_⟩
  · have hf : forwardDct cfg0 (Vector.replicate 64 0) = Vector.replicate 64 (.fin false 0 (-1074)) := by decide +kernel
    have hr : ∀ k : Fin 64, bitlen (F64.round .nearestAway (F64.div (.fin false 0 (-1074)) (F64.ofInt ((quantTable 0)[k]).toNat))) ≤ 10 := by
      decide +kernel
    have hv : sourceBlock ⟨8, 8, 1, List.replicate 64 128⟩ 0 = Vector.replicate 64 0 := by decide +kernel
    show bitlen (sourceCoef cfg0 ⟨8, 8, 1, List.replicate 64 128⟩ 0 k) ≤ 10
    unfold sourceCoef
    rw [hv, hf]
    simp only [Fin.getElem_fin, Vector.getElem_replicate]
    exact hr k
  · have h := test_encode_grey
    show ∃ e', Encoder.encode cfg0 _ = .ok e'
    cases he : Encoder.encode cfg0 (Encoder.construct ⟨8, 8, 1, List.replicate 64 128⟩) with
    | ok e' => exact ⟨e', rfl⟩
    | refuse r e' => rw [he] at h; cases h

end Sys2Proof.Tests
end

section
/-! SUPPORT. What a turn of the running Feed does (46_host_interface R187) and what a unit of work without its bytes answers
(00_scope R13), and the obligations settled from it. -/

namespace Sys2Proof.Machine

/-! ### The unit of work that a step runs -/

theorem step_eq_unitOfWork {s : State} (running : s.host.running = true) (live : s.dec.seg.final = false)
    (cancel : s.dec.cancel = false) : step s = unitOfWork s := by
  simp [step, runTurn, running, live, cancel]

theorem unitOfWork_marker {s : State} (h : s.dec.seg = .marker) : unitOfWork s = markerUnit s := by
  simp only [unitOfWork, h]

theorem unitOfWork_scan {s : State} (h : s.dec.seg = .scan) : unitOfWork s = scanUnit s := by
  simp only [unitOfWork, h]

theorem handlerOf_not_final {i : Instr} {g : Seg} (h : handlerOf i = some g) : g.final = false := by
  unfold handlerOf at h
  split at h <;> cases h <;> rfl

/-- `D.sof_code` names the start-of-frame instruction whose code it holds (10_state R22). -/
theorem sofInstr_codeByte {i : Instr} (h : handlerOf i = some .sof) : sofInstr i.codeByte = some i := by
  unfold handlerOf at h
  split at h <;> cases h <;> rfl

/-- In a handler's segment state the unit of work is the selecting marker's instruction (log 15). -/
theorem unitOfWork_handler {s : State} {i : Instr} (h : handlerOf i = some s.dec.seg)
    (code : s.dec.seg = .sof → s.dec.sofCode = i.codeByte) : unitOfWork s = exec i s := by
  by_cases sof : s.dec.seg = .sof
  · have hi : sofInstr s.dec.sofCode = some i := (code sof).symm ▸ sofInstr_codeByte (sof ▸ h)
    simp only [unitOfWork, sof, hi]
  · generalize hg : s.dec.seg = g at h sof
    unfold handlerOf at h
    split at h <;> cases h <;> simp [unitOfWork, hg] at sof ⊢

theorem inHandler_of_seg {g : Seg} {s : State} (h : s.dec.seg = g) (handler marker : Host.Outcome State Fault Refusal) :
    inHandler g s handler marker = handler := if_pos h

/-- Every handler works on the segment that `SegFetch` answers (40_segments R92). -/
theorem exec_handler_eq_withSegment {s : State} {i : Instr} (h : handlerOf i = some s.dec.seg) :
    ∃ body, exec i s = withSegment s body := by
  generalize hg : s.dec.seg = g at h
  unfold handlerOf at h
  split at h <;> cases h <;> exact ⟨_, inHandler_of_seg hg _ _⟩

/-- A unit of work in `SCAN` that needs a bit reads it with `ReadBit` (42_entropy R127). -/
theorem scanUnit_eq_withBit {s : State} (active : s.dec.active.isSome = true)
    (sub : s.dec.sub = .magnitude ∨ s.dec.sub = .amplitude ∧ s.dec.ampn < s.dec.mag) : ∃ body, scanUnit s = withBit s body := by
  obtain ⟨⟨j, c⟩, hc⟩ := Option.isSome_iff_exists.1 active
  rcases sub with hm | ⟨ha, hn⟩
  · exact ⟨_, by simp only [scanUnit, hc, hm]; rfl⟩
  · exact ⟨_, by simp only [scanUnit, hc, ha, if_pos hn]; rfl⟩

/-! ### Holds -/

theorem markerUnit_hold {s : State} (h : s.dec.avail < s.dec.pos + 2) : markerUnit s = needMore s := if_pos h

theorem withSegment_hold {s : State} (h : segFetch s.dec = .hold) (body : Nat → List Byte → Host.Outcome State Fault Refusal) :
    withSegment s body = needMore s := by
  simp only [withSegment, h]

theorem withBit_hold {s : State} (h : readBit s.dec = .hold) (body : Bool → State → Host.Outcome State Fault Refusal) :
    withBit s body = needMore s := by
  simp only [withBit, h]

theorem feedResult_needMore {d : Decoder} (h : d.seg.final = false) : feedResult d = .needMore d.pos := by
  cases hg : d.seg <;> simp_all [Seg.final, feedResult]

theorem needMore_waiting {s : State} (eos : s.dec.eos = false) : needMore s = .next (feedReturn s) := by
  simp [needMore, eos]

theorem needMore_eos {s : State} (eos : s.dec.eos = true) : needMore s = .next (errorEntry .e37 s) := by
  simp [needMore, eos, raise]

/-- Settles O9: each kind of unit is `needMore` when its bytes are missing, and `needMore` returns from the Feed or raises E37. -/
theorem holdLeavesDecoderUnchanged : Obligations.HoldLeavesDecoderUnchanged := by
  intro s running cancel missing
  obtain ⟨live, hold⟩ : s.dec.seg.final = false ∧ unitOfWork s = needMore s := by
    rcases missing with ⟨marker, short⟩ | ⟨i, handler, code, short⟩ | ⟨scan, active, sub, nbits, short⟩
    · exact ⟨by simp [marker, Seg.final], (unitOfWork_marker marker).trans (markerUnit_hold short)⟩
    · obtain ⟨body, hbody⟩ := exec_handler_eq_withSegment handler
      refine ⟨handlerOf_not_final handler, ?_⟩
      rw [unitOfWork_handler handler code, hbody, withSegment_hold (segFetch_hold.2 short)]
    · obtain ⟨body, hbody⟩ := scanUnit_eq_withBit active sub
      refine ⟨by simp [scan, Seg.final], ?_⟩
      rw [unitOfWork_scan scan, hbody, withBit_hold (readBit_hold.2 ⟨nbits, short⟩)]
  have hstep : step s = needMore s := (step_eq_unitOfWork running live cancel).trans hold
  refine ⟨fun eos => ?_, fun eos => hstep.trans (needMore_eos eos)⟩
  rw [hstep, needMore_waiting eos, feedReturn, feedResult_needMore live]

end Sys2Proof.Machine
end

section
/-! SUPPORT. How an instruction can end (40_segments R91 to R110, 42_entropy R129 to R135), said once, and what it may write (10_state R19). -/

namespace Sys2Proof.Machine

/-! ### How an instruction can end -/

/-- The table entries a handler may have written before it raises (40_segments R113): only DQT and DHT write any. -/
inductive TableWrites : Instr → Decoder → Decoder → Prop
  | none {i : Instr} {d : Decoder} : TableWrites i d d
  | quant {d : Decoder} {qt : Vector QTable 4} :
      (∀ t : Fin 4, d.qt[t].defined = true → qt[t].defined = true) → TableWrites .dqt d { d with qt := qt }
  | huff {d : Decoder} {dc ac : Vector HuffTable 4} : TableWrites .dht d { d with dcTables := dc, acTables := ac }

/-- What the handler of an accepted segment with payload `p` writes before it retires to `MARKER` (40_segments R98 to R106). -/
inductive SegmentWrites (cfg : Params) (p : List Byte) : Instr → Decoder → Decoder → Prop
  | tables {i : Instr} {d d' : Decoder} : TableWrites i d d' → SegmentWrites cfg p i d d'
  | frame {i : Instr} {d : Decoder} {mode : Mode} {cs : List Component} :
      modeOf i = some mode → checkFrame cfg d p = .ok cs → SegmentWrites cfg p i d (commitFrame d mode p cs)
  | jfif {d : Decoder} {version : Option (Byte × Byte)} {density : Density} :
      SegmentWrites cfg p .app0 d { d with jfifVersion := version, density := density }
  | comment {d : Decoder} : SegmentWrites cfg p .com d { d with comment := some p }

/-- Every next state of an instruction: a symbol's (42_entropy R129 to R135), the marker step's (40_segments R93 to R97), and, in the
segment state that the instruction's marker selects, the handler's (R98 to R110). -/
inductive ExecEnds (s : State) : Instr → State → Prop
  | symbolRaises {i : Instr} (e : Err) : i.kind ≠ .marker → ExecEnds s i (errorEntry e s)
  | endsBlock : ExecEnds s .acEob (s.withDec { s.dec with sub := .endOfBlockCount })
  | startsAmplitude {i : Instr} (run mag : Nat) : i.kind ≠ .marker → run ≤ 15 → mag ≤ 15 →
      ExecEnds s i (s.withDec { s.dec with run := run, mag := mag, amp := 0, ampn := 0, sub := .amplitude })
  | refuses {i : Instr} (e : Err) : i.kind = .marker → handlerOf i = none → ExecEnds s i (errorEntry e (s.consume 2))
  | startOfImage : ExecEnds s .soi ((s.consume 2).goto .marker)
  | delivers (img : Image) : s.dec.scanComplete = true → s.dec.img = some img →
      ExecEnds s .eoi (signalCompletion (.image { img with density := s.dec.density })
        ((s.consume 2).withDec { (s.consume 2).dec with img := some { img with density := s.dec.density }, seg := .done }))
  | selects {i : Instr} {g : Seg} : handlerOf i = some g → s.dec.seg ≠ g → g ≠ .sof → ExecEnds s i ((s.consume 2).goto g)
  | selectsFrame {i : Instr} {mode : Mode} : modeOf i = some mode → s.dec.seg ≠ .sof →
      ExecEnds s i (((s.consume 2).withDec { (s.consume 2).dec with sofCode := i.codeByte }).goto .sof)
  | holds {i : Instr} : handlerOf i = some s.dec.seg → ExecEnds s i (feedReturn s)
  | fails {i : Instr} {d : Decoder} (e : Err) : handlerOf i = some s.dec.seg → TableWrites i s.dec d →
      ExecEnds s i (errorEntry e (s.withDec d))
  | retires {i : Instr} {d : Decoder} {p : List Byte} : handlerOf i = some s.dec.seg → segmentAt s.dec p →
      SegmentWrites s.cfg p i s.dec d → ExecEnds s i (segRetire (p.length + 2) .marker (s.withDec d))
  | startsScan {p : List Byte} {es : List ScanEntry} : s.dec.seg = .sos → segmentAt s.dec p → checkScan s.dec p = .ok es →
      ExecEnds s .sos (segRetire (p.length + 2) .scan (s.withDec (commitScan s.dec es)))

/-- A symbol's instruction raises, ends the block, or starts an amplitude, by its row (42_entropy R129 to R135). -/
theorem exec_of_symbol {i : Instr} (h : i.kind ≠ .marker) :
    (∃ e, ∀ s, exec i s = raise e s) ∨ i = .acEob ∨ ∃ run mag, run ≤ 15 ∧ mag ≤ 15 ∧ ∀ s, exec i s = startAmplitude run mag s := by
  have nibble : ∀ r : BitVec 4, r.toNat ≤ 15 := fun r => Nat.le_of_lt_succ r.isLt
  cases i <;> first
    | exact absurd rfl h
    | exact .inl ⟨_, fun _ => rfl⟩
    | exact .inr (.inl rfl)
    | exact .inr (.inr ⟨_, _, nibble _, by omega, fun _ => rfl⟩)
    | exact .inr (.inr ⟨_, _, by omega, by omega, fun _ => rfl⟩)

/-- A marker without a handler is SOI, EOI, or refused at dispatch, by its row (40_segments R94 to R97). -/
theorem exec_of_dispatchedMarker {i : Instr} (marker : i.kind = .marker) (h : handlerOf i = none) :
    i = .soi ∨ i = .eoi ∨ ∃ e, ∀ s, exec i s = refuseMarker e s := by
  cases i <;> first
    | exact .inr (.inr ⟨_, fun _ => rfl⟩)
    | exact .inl rfl
    | exact .inr (.inl rfl)
    | (cases marker; done)
    | cases h

/-- The frame of every handler: missing bytes hold or raise E37, a length below 2 raises E3 (R92). -/
theorem handler_ends {s : State} {i : Instr} (h : handlerOf i = some s.dec.seg)
    {body : Nat → List Byte → Host.Outcome State Fault Refusal} (ok : ∀ p, segmentAt s.dec p → Ends (ExecEnds s i) (body (p.length + 2) p)) :
    Ends (ExecEnds s i) (withSegment s body) :=
  ends_withSegment ok (ends_needMore (.holds h) (.fails _ h .none)) (.fails _ h .none)

theorem dqtBody_ends {s : State} (seg : s.dec.seg = .dqt) {p : List Byte} (at_pos : segmentAt s.dec p) :
    Ends (ExecEnds s .dqt) (dqtBody s (p.length + 2) p) := by
  have h : handlerOf .dqt = some s.dec.seg := congrArg some seg.symm
  have writes : TableWrites .dqt s.dec { s.dec with qt := (dqtEntries p.length p s.dec.qt).1 } :=
    .quant fun t => dqtEntries_defined _ _ _ t
  unfold dqtBody
  split
  · exact (ends_raise _ _ _).2 (.fails _ h .none)
  · dsimp only
    split
    · exact (ends_raise _ _ _).2 (.fails _ h writes)
    · exact (ends_next _ _).2 (.retires h at_pos (.tables writes))

theorem dhtBody_ends {s : State} (seg : s.dec.seg = .dht) {p : List Byte} (at_pos : segmentAt s.dec p) :
    Ends (ExecEnds s .dht) (dhtBody s (p.length + 2) p) := by
  have h : handlerOf .dht = some s.dec.seg := congrArg some seg.symm
  obtain ⟨dc, ac, hd⟩ := dhtEntries_eq p.length p s.dec
  have writes : TableWrites .dht s.dec (dhtEntries p.length p s.dec).1 := hd ▸ .huff
  unfold dhtBody
  split
  · exact (ends_raise _ _ _).2 (.fails _ h .none)
  · dsimp only
    split
    · exact (ends_raise _ _ _).2 (.fails _ h writes)
    · exact (ends_next _ _).2 (.retires h at_pos (.tables writes))

theorem sofBody_ends {s : State} {i : Instr} {mode : Mode} (h : handlerOf i = some s.dec.seg) (hm : modeOf i = some mode) {p : List Byte}
    (at_pos : segmentAt s.dec p) : Ends (ExecEnds s i) (sofBody mode s (p.length + 2) p) := by
  unfold sofBody
  split
  · exact (ends_raise _ _ _).2 (.fails _ h .none)
  · exact (ends_next _ _).2 (.retires h at_pos (.frame hm (by assumption)))

theorem sosBody_ends {s : State} (seg : s.dec.seg = .sos) {p : List Byte} (at_pos : segmentAt s.dec p) :
    Ends (ExecEnds s .sos) (sosBody s (p.length + 2) p) := by
  unfold sosBody
  split
  · exact (ends_raise _ _ _).2 (.fails _ (congrArg some seg.symm) .none)
  · exact (ends_next _ _).2 (.startsScan seg at_pos (by assumption))

theorem app0Body_ends {s : State} (seg : s.dec.seg = .app0) {p : List Byte} (at_pos : segmentAt s.dec p) :
    Ends (ExecEnds s .app0) (app0Body s (p.length + 2) p) := by
  have h : handlerOf .app0 = some s.dec.seg := congrArg some seg.symm
  unfold app0Body
  split
  · split
    · exact (ends_raise _ _ _).2 (.fails _ h .none)
    · exact (ends_next _ _).2 (.retires h at_pos .jfif)
  · exact (ends_next _ _).2 (.retires h at_pos (.tables .none))

theorem eoi_ends (s : State) : Ends (ExecEnds s .eoi) (execEoi s) := by
  unfold execEoi eoiBody
  split
  · rename_i complete
    split
    · exact ends_fault _ _
    · rename_i img hi
      exact (ends_next _ _).2 (.delivers img complete hi)
  · exact (ends_raise _ _ _).2 (.refuses _ rfl rfl)

/-- An instruction with a handler runs it in the handler's own state and its marker step in any other (log 15). -/
theorem exec_handler_ends {s : State} {i : Instr} {g : Seg} (h : handlerOf i = some g) : Ends (ExecEnds s i) (exec i s) := by
  have frame : ∀ {i : Instr} {mode : Mode}, handlerOf i = some .sof → modeOf i = some mode →
      Ends (ExecEnds s i) (inHandler .sof s (withSegment s (sofBody mode s)) (selectSof i.codeByte s)) :=
    fun h hm => ends_inHandler (fun seg => handler_ends (seg ▸ h) fun _ => sofBody_ends (seg ▸ h) hm)
      fun seg => (ends_next _ _).2 (.selectsFrame hm seg)
  have other : ∀ {i : Instr} {g : Seg} {body : Nat → List Byte → Host.Outcome State Fault Refusal}, handlerOf i = some g → g ≠ .sof →
      (s.dec.seg = g → ∀ p, segmentAt s.dec p → Ends (ExecEnds s i) (body (p.length + 2) p)) →
      Ends (ExecEnds s i) (inHandler g s (withSegment s body) (selectHandler g s)) :=
    fun h sof ok => ends_inHandler (fun seg => handler_ends (seg ▸ h) (ok seg)) fun seg => (ends_next _ _).2 (.selects h seg sof)
  have refused : ∀ {i : Instr} {g : Seg} {e : Err}, handlerOf i = some g → s.dec.seg = g → ∀ p : List Byte, segmentAt s.dec p →
      Ends (ExecEnds s i) (raise e s) :=
    fun h seg _ _ => (ends_raise _ _ _).2 (.fails _ (seg ▸ h) .none)
  unfold handlerOf at h
  split at h
  · exact frame (mode := .baseline) rfl rfl
  · exact frame (mode := .extended) rfl rfl
  · exact frame (mode := .progressive) rfl rfl
  · exact frame (mode := .lossless) rfl rfl
  · exact other (i := .dht) rfl (by decide) fun seg _ => dhtBody_ends seg
  · exact other (i := .sos) rfl (by decide) fun seg _ => sosBody_ends seg
  · exact other (i := .dqt) rfl (by decide) fun seg _ => dqtBody_ends seg
  · exact other (i := .app0) rfl (by decide) fun seg _ => app0Body_ends seg
  · exact other (i := .com) rfl (by decide) fun seg _ at_pos =>
      (ends_next _ _).2 (.retires (congrArg some seg.symm) at_pos .comment)
  · exact other (i := .dac) rfl (by decide) (refused rfl)
  · exact other (i := .dnl) rfl (by decide) (refused rfl)
  · exact other (i := .dri) rfl (by decide) (refused rfl)
  · exact other (i := .exp) rfl (by decide) (refused rfl)
  · cases h

/-- The inversion of `exec`. -/
theorem exec_ends (i : Instr) (s : State) : Ends (ExecEnds s i) (exec i s) := by
  cases handler : handlerOf i with
  | some g => exact exec_handler_ends handler
  | none =>
    by_cases marker : i.kind = .marker
    · rcases exec_of_dispatchedMarker marker handler with rfl | rfl | ⟨e, he⟩
      · exact (ends_next _ _).2 .startOfImage
      · exact eoi_ends s
      · exact he s ▸ (ends_raise _ _ _).2 (.refuses e marker handler)
    · rcases exec_of_symbol marker with ⟨e, he⟩ | rfl | ⟨run, mag, hrun, hmag, he⟩
      · exact he s ▸ (ends_raise _ _ _).2 (.symbolRaises e marker)
      · exact (ends_next _ _).2 .endsBlock
      · exact he s ▸ (ends_next _ _).2 (.startsAmplitude run mag marker hrun hmag)

/-! ### What an instruction may write -/

theorem kind_of_handlerOf {i : Instr} {g : Seg} (h : handlerOf i = some g) : i.kind = .marker := by
  unfold handlerOf at h
  split at h <;> cases h <;> rfl

theorem handlerOf_of_modeOf {i : Instr} {m : Mode} (h : modeOf i = some m) : handlerOf i = some .sof := by
  unfold modeOf at h
  split at h <;> cases h <;> rfl

/-- Settles O48: every way in which an instruction can end writes no register of another instruction. -/
theorem instructionsWriteOnlyTheirRegisters : Obligations.InstructionsWriteOnlyTheirRegisters := by
  intro i s t h
  cases exec_ends i s t h with
  | symbolRaises e symbol => cases hc : s.dec.completed <;> simp [errorEntry_eq, hc, Seg.final]
  | endsBlock => simp [show Instr.acEob.kind ≠ .marker by decide]
  | startsAmplitude run mag symbol => simp [symbol]
  | refuses e marker dispatched => cases hc : s.dec.completed <;> simp [errorEntry_eq, hc, Seg.final, marker]
  | startOfImage => simp [show Instr.soi.kind = .marker from rfl]
  | delivers img complete present =>
    cases hc : s.dec.completed <;> simp [signalCompletion_eq, hc, Seg.final, show Instr.eoi.kind = .marker from rfl]
  | selects handler other sof => simp [kind_of_handlerOf handler, handler]
  | selectsFrame mode other =>
    have handler := handlerOf_of_modeOf mode
    simp [kind_of_handlerOf handler, handler, mode]
  | holds handler => simp [feedReturn, handler]
  | fails e handler writes =>
    cases writes <;> cases hc : s.dec.completed <;> simp [errorEntry_eq, hc, Seg.final]
  | retires handler at_pos writes =>
    have marker := kind_of_handlerOf handler
    cases writes with
    | tables writes => cases writes <;> simp [handler, marker]
    | frame mode accepted => simp [handler, marker, mode, commitFrame, Decoder.flagFrame]
    | jfif => simp [handler, marker]
    | comment => simp [handler, marker]
  | startsScan seg at_pos accepted => simp [commitScan, Decoder.flagScan, show Instr.sos.kind = .marker from rfl, handlerOf]

end Sys2Proof.Machine
end

section
/-! SUPPORT. What a turn of the running Feed reaches (46_host_interface R187), how the operations of the scan can end (42_entropy R127 to R139,
43_mcu_color R143 to R150), said once, and what a step inside the scan keeps (70_reset_and_hazards R219, R221). -/

namespace Sys2Proof.Machine

/-! ### From a step to its unit of work -/

/-- A turn of the running Feed returns to the host, is cancelled, or runs a unit of work (46_host_interface R187). -/
theorem ends_step_running {P : State → Prop} {s : State} (running : s.host.running = true)
    (final : s.dec.seg.final = true → P (feedReturn s))
    (cancelled : s.dec.seg.final = false → P (errorEntry .e39 s))
    (unit : s.dec.seg.final = false → s.dec.cancel = false → Ends P (unitOfWork s)) : Ends P (step s) := by
  simp only [step, running, if_true, runTurn]
  split
  · exact (ends_next _ _).2 (final (by assumption))
  · rename_i live
    split
    · exact (ends_raise _ _ _).2 (cancelled (by simpa using live))
    · rename_i cancel
      exact unit (by simpa using live) (by simpa using cancel)

/-- An instruction runs on a whole marker in `MARKER`, or in the segment state its marker selects. -/
def Dispatches (s : State) (i : Instr) : Prop :=
  s.dec.seg = .marker ∧ s.dec.pos + 2 ≤ s.dec.avail ∨ handlerOf i = some s.dec.seg

theorem sofInstr_handler {code : Byte} {i : Instr} (h : sofInstr code = some i) : handlerOf i = some .sof := by
  unfold sofInstr at h
  repeat' split at h
  all_goals cases h <;> rfl

/-- A unit of work reads a marker, runs an instruction, or is one of the scan's. -/
theorem ends_unitOfWork {P : State → Prop} {s : State} (live : s.dec.seg.final = false)
    (hold : s.dec.seg = .marker → Ends P (needMore s)) (noMarker : s.dec.seg = .marker → P (errorEntry .e1 s))
    (run : ∀ i, Dispatches s i → Ends P (exec i s)) (scan : s.dec.seg = .scan → Ends P (scanUnit s)) : Ends P (unitOfWork s) := by
  have handler : ∀ {i g}, handlerOf i = some g → s.dec.seg = g → Ends P (exec i s) := fun h seg => run _ (.inr (seg ▸ h))
  cases seg : s.dec.seg with
  | marker =>
    rw [unitOfWork_marker seg, markerUnit]
    split
    · exact hold seg
    · split
      · split
        · exact run _ (.inl ⟨seg, by omega⟩)
        · exact (ends_raise _ _ _).2 (noMarker seg)
      · exact ends_fault _ _
      · exact ends_fault _ _
  | sof =>
    simp only [unitOfWork, seg]
    split
    · exact handler (sofInstr_handler (by assumption)) seg
    · exact ends_fault _ _
  | scan => exact unitOfWork_scan seg ▸ scan seg
  | dqt => simpa only [unitOfWork, seg] using handler (i := .dqt) rfl seg
  | dnl => simpa only [unitOfWork, seg] using handler (i := .dnl) rfl seg
  | dri => simpa only [unitOfWork, seg] using handler (i := .dri) rfl seg
  | exp => simpa only [unitOfWork, seg] using handler (i := .exp) rfl seg
  | dht => simpa only [unitOfWork, seg] using handler (i := .dht) rfl seg
  | dac => simpa only [unitOfWork, seg] using handler (i := .dac) rfl seg
  | sos => simpa only [unitOfWork, seg] using handler (i := .sos) rfl seg
  | app0 => simpa only [unitOfWork, seg] using handler (i := .app0) rfl seg
  | com => simpa only [unitOfWork, seg] using handler (i := .com) rfl seg
  | done => simp [seg, Seg.final] at live
  | error => simp [seg, Seg.final] at live

/-! ### How the operations of the scan can end -/

theorem active_eq_some {d : Decoder} {j : Nat} {c : Component} :
    d.active = some (j, c) ↔ d.order[d.scanPos]? = some j ∧ d.comps[j]? = some c := by
  unfold Decoder.active
  split
  · simp_all
  · rename_i j' order
    rw [order, Option.some.injEq]
    split <;> rename_i comp
    · refine ⟨nofun, ?_⟩
      rintro ⟨rfl, h⟩
      rw [comp] at h
      cases h
    · rw [Option.some.injEq, Prod.mk.injEq]
      refine and_congr_right ?_
      rintro rfl
      rw [comp, Option.some.injEq]

/-- The cursors at a data unit: the counter of the component at `j`, the scan position, the MCU, and the first coefficient. -/
def Decoder.atUnit (d : Decoder) (j : Nat) (c : Component) (du scanPos mcu : Nat) : Decoder :=
  { d.setComp j { c with du := du } with k := 0, scanPos := scanPos, mcu := mcu }

/-- The cursors after a data unit (43_mcu_color R149, R150): the next unit of the component, the next component of the MCU, the next MCU,
or the end of the scan. -/
theorem advanceCursors_cases (d : Decoder) (j : Nat) (c : Component) :
    c.du + 1 ≠ c.h * c.v ∧ advanceCursors d j c = d.atUnit j c (c.du + 1) d.scanPos d.mcu
    ∨ c.du + 1 = c.h * c.v ∧
      (d.scanPos + 1 ≠ d.ns ∧ advanceCursors d j c = d.atUnit j c 0 (d.scanPos + 1) d.mcu
      ∨ d.scanPos + 1 = d.ns ∧
        (d.mcu + 1 ≠ d.mcuTotal ∧ advanceCursors d j c = d.atUnit j c 0 0 (d.mcu + 1)
        ∨ d.mcu + 1 = d.mcuTotal ∧ advanceCursors d j c = (d.atUnit j c 0 0 (d.mcu + 1)).scanEnd)) := by
  unfold advanceCursors
  by_cases unit : c.du + 1 = c.h * c.v
  · refine .inr ⟨unit, ?_⟩
    rw [if_pos unit]
    by_cases component : d.scanPos + 1 = d.ns
    · refine .inr ⟨component, ?_⟩
      simp only [Decoder.setComp_ns, component, if_true, advanceMcu, Decoder.setComp_mcu, Decoder.setComp_mcuTotal]
      by_cases mcu : d.mcu + 1 = d.mcuTotal
      · exact .inr ⟨mcu, if_pos mcu⟩
      · exact .inl ⟨mcu, if_neg mcu⟩
    · exact .inl ⟨component, if_neg component⟩
  · exact .inl ⟨unit, if_neg unit⟩

/-- `DataUnitComplete` (43_mcu_color R143) raises E36, or places the samples and advances the cursors. -/
theorem ends_dataUnitComplete {P : State → Prop} {s : State} {j : Nat} {c : Component} (overflow : P (errorEntry .e36 s))
    (placed : ∀ img samples pix, s.dec.img = some img →
      placePixels s.cfg.ccRound s.dec c.index (convertsNow s.dec) img.pix (unitPixels s.dec c samples) = .ok pix →
      P (s.withDec (advanceCursors { s.dec with img := some { img with pix := pix } } j c))) :
    Ends P (dataUnitComplete s j c) := by
  unfold dataUnitComplete
  split
  · exact (ends_raise _ _ _).2 overflow
  · split
    · exact ends_fault _ _
    · split
      · exact ends_fault _ _
      · exact (ends_next _ _).2 (placed _ _ _ (by assumption) (by assumption))

/-- Every coefficient stays in the range of `i32` (10_state R35). -/
def ScratchOk (scratch : Vector Int 64) : Prop := ∀ i : Fin 64, inI32 scratch[i] = true

theorem ScratchOk.set {scratch : Vector Int 64} (h : ScratchOk scratch) {x : Int} (hx : inI32 x = true) (z : Fin 64) :
    ScratchOk (scratch.set z.val x z.isLt) := by
  intro i
  rw [Fin.getElem_fin, Vector.getElem_set]
  split
  · exact hx
  · exact h i

/-- `AddCoef` (42_entropy R139) writes the scratch buffer and `D.k`, and completes the data unit at the 64th coefficient. -/
theorem ends_addCoef {P : State → Prop} {s : State} {j : Nat} {c : Component} {run : Nat} {v : Int}
    (overrun : P (errorEntry .e31 s))
    (outOfRange : ∀ scratch, (ScratchOk c.scratch → ScratchOk scratch) → s.dec.k + run ≤ 63 →
      P (errorEntry .e35 (s.withDec (s.dec.withScratch j { c with scratch := scratch } (s.dec.k + run)))))
    (placed : ∀ scratch, (ScratchOk c.scratch → ScratchOk scratch) → s.dec.k + run < 63 →
      P (s.withDec (s.dec.withScratch j { c with scratch := scratch } (s.dec.k + run + 1))))
    (last : ∀ scratch, (ScratchOk c.scratch → ScratchOk scratch) →
      Ends P (dataUnitComplete (s.withDec (s.dec.withScratch j { c with scratch := scratch } 64)) j { c with scratch := scratch })) :
    Ends P (addCoef s j c run v) := by
  have zeros : ScratchOk c.scratch → ScratchOk (zeroFill c.scratch s.dec.k run) := fun h => zeroFill_i32 _ h _ _
  unfold addCoef
  split
  · exact (ends_raise _ _ _).2 overrun
  · dsimp only
    split
    · rename_i inRange
      have written := fun h => (zeros h).set inRange (zigzagPos (s.dec.k + run))
      split
      · rename_i full
        rw [full]
        exact last _ written
      · exact (ends_next _ _).2 (placed _ written (by omega))
    · exact (ends_raise _ _ _).2 (outOfRange _ zeros (by omega))

/-- The resolution of an amplitude (42_entropy R137): the predictor's check and write at index 0, then `AddCoef`. -/
theorem ends_resolveAmplitude {P : State → Prop} {s : State} {j : Nat} {c : Component} (outOfRange : P (errorEntry .e35 s))
    (dc : ∀ p, inI32 p = true →
      Ends P (addCoef (s.withDec { s.dec.setComp j { c with pred := p } with sub := .magnitude }) j { c with pred := p } s.dec.run p))
    (ac : ∀ v, Ends P (addCoef (s.withDec { s.dec with sub := .magnitude }) j c s.dec.run v)) : Ends P (resolveAmplitude s j c) := by
  unfold resolveAmplitude
  dsimp only
  split
  · split
    · exact dc _ (by assumption)
    · exact (ends_raise _ _ _).2 outOfRange
  · exact ac _

theorem ends_eobStep {P : State → Prop} {s : State} {j : Nat} {c : Component}
    (last : ∀ scratch, (ScratchOk c.scratch → ScratchOk scratch) →
      Ends P (dataUnitComplete (s.withDec { s.dec.withScratch j { c with scratch := scratch } (max s.dec.k 64) with sub := .magnitude }) j
        { c with scratch := scratch })) : Ends P (eobStep s j c) :=
  last _ fun h => zeroFill_i32 _ h _ _

theorem settle_of_not_scan {s : State} (h : s.dec.seg ≠ .scan) : settle s = .next s := if_neg h

/-- What a bit completes (46_host_interface R187): nothing yet, an amplitude, or the rest of a block. -/
theorem ends_settle {P : State → Prop} {s : State} (elsewhere : s.dec.seg ≠ .scan → P s)
    (still : s.dec.seg = .scan → s.dec.sub = .magnitude ∨ s.dec.sub = .amplitude ∧ s.dec.ampn < s.dec.mag → P s)
    (resolve : ∀ j c, s.dec.active = some (j, c) → s.dec.sub = .amplitude → s.dec.mag ≤ s.dec.ampn → Ends P (resolveAmplitude s j c))
    (eob : ∀ j c, s.dec.active = some (j, c) → s.dec.sub = .endOfBlockCount → Ends P (eobStep s j c)) : Ends P (settle s) := by
  unfold settle
  split
  · rename_i seg
    split
    · exact ends_fault _ _
    · rename_i j c active
      split
      · exact (ends_next _ _).2 (still seg (.inl (by assumption)))
      · split
        · exact (ends_next _ _).2 (still seg (.inr ⟨by assumption, by assumption⟩))
        · exact resolve j c active (by assumption) (by omega)
      · exact eob j c active (by assumption)
  · exact (ends_next _ _).2 (elsewhere (by assumption))

/-- A bit of a Huffman code (42_entropy R128): the code goes on, has no symbol, or its symbol's instruction runs. -/
theorem ends_magnitudeBit {P : State → Prop} {s : State} {c : Component} {b : Bool}
    (more : s.dec.hwidth + 1 ≠ 16 → P (s.withDec (appendCodeBit b s.dec)))
    (noSymbol : ∀ e, P (errorEntry e (s.withDec (appendCodeBit b s.dec))))
    (refused : ∀ e, P (errorEntry e (s.withDec (clearCode s.dec))))
    (endOfBlock : Ends P (settle (s.withDec { clearCode s.dec with sub := .endOfBlockCount })))
    (amplitude : ∀ run mag, run ≤ 15 → mag ≤ 15 →
      Ends P (settle (s.withDec { clearCode s.dec with run := run, mag := mag, amp := 0, ampn := 0, sub := .amplitude }))) :
    Ends P (magnitudeBit s c b) := by
  unfold magnitudeBit
  dsimp only
  split
  · exact (ends_next _ _).2 (more (huffStep_more (by assumption)))
  · exact (ends_raise _ _ _).2 (noSymbol _)
  · rename_i v _
    show Ends P (andThen (exec (decodeSymbol s.dec.k v) (s.withDec (clearCode s.dec))) settle)
    refine ends_andThen ?_
    rcases exec_symbol s.dec.k v (s.withDec (clearCode s.dec)) with ⟨e, he⟩ | he | ⟨run, mag, hrun, hmag, he⟩
    · rw [he, ends_raise, settle_of_not_scan (by simp [errorEntry_eq]), ends_next]
      exact refused e
    · rw [he, ends_next]
      exact endOfBlock
    · rw [he, ends_next]
      exact amplitude run mag hrun hmag

/-- A unit of work in `SCAN` (42_entropy R127): a bit of a code, a bit of an amplitude, or an action without a bit. -/
theorem ends_scanUnit {P : State → Prop} {s : State} (hold : Ends P (needMore s))
    (marker : ∀ d, readBit s.dec = .markerSeen d → P (s.withDec d))
    (codeBit : ∀ j c b d, s.dec.active = some (j, c) → s.dec.sub = .magnitude → readBit s.dec = .bit b d →
      Ends P (magnitudeBit (s.withDec d) c b))
    (valueBit : ∀ j c b d, s.dec.active = some (j, c) → s.dec.sub = .amplitude → s.dec.ampn < s.dec.mag → readBit s.dec = .bit b d →
      Ends P (settle (s.withDec (amplitudeBit b d))))
    (resolve : ∀ j c, s.dec.active = some (j, c) → s.dec.sub = .amplitude → s.dec.mag ≤ s.dec.ampn → Ends P (resolveAmplitude s j c))
    (eob : ∀ j c, s.dec.active = some (j, c) → s.dec.sub = .endOfBlockCount → Ends P (eobStep s j c)) : Ends P (scanUnit s) := by
  unfold scanUnit
  split
  · exact ends_fault _ _
  · rename_i j c active
    split
    · exact ends_withBit (fun b d => codeBit j c b d active (by assumption)) marker hold
    · split
      · exact ends_withBit (fun b d => valueBit j c b d active (by assumption) (by assumption)) marker hold
      · exact resolve j c active (by assumption) (by omega)
    · exact eob j c active (by assumption)

/-! ### What a step inside the scan keeps -/

/-- A component without the registers that the scan writes (10_state R35). -/
def Component.header (c : Component) : Component := { c with pred := 0, du := 0, scratch := Vector.replicate 64 0 }

/-- An image without its cells. -/
def Image.header (img : Image) : Image := { img with pix := [] }

/-- A decoder without the registers that a step inside the scan may write (70_reset_and_hazards R219). -/
def Decoder.scanFrame (d : Decoder) : Decoder :=
  { d with
    seg := .scan, sub := .magnitude, pos := 0, acc := 0, nbits := 0, k := 0, hcode := 0, hwidth := 0, run := 0, mag := 0, amp := 0, ampn := 0
    comps := d.comps.map Component.header, img := d.img.map Image.header, scanComplete := false, scanPos := 0, mcu := 0
    error := none, completed := false }

/-- `t` is `s` but for what a step inside the scan may write, with `D.pos` at least as far. -/
structure ScanKeeps (s t : State) : Prop where
  cfg : t.cfg = s.cfg
  enc : t.enc = s.enc
  pending : t.host.pending = s.host.pending
  frame : t.dec.scanFrame = s.dec.scanFrame
  pos : s.dec.pos ≤ t.dec.pos

theorem ScanKeeps.trans {s t u : State} (h : ScanKeeps s t) (h' : ScanKeeps t u) : ScanKeeps s u :=
  ⟨h'.cfg.trans h.cfg, h'.enc.trans h.enc, h'.pending.trans h.pending, h'.frame.trans h.frame, h.pos.trans h'.pos⟩

theorem scanKeeps_withDec {s : State} {d : Decoder} (frame : d.scanFrame = s.dec.scanFrame) (pos : s.dec.pos ≤ d.pos) :
    ScanKeeps s (s.withDec d) := ⟨rfl, rfl, rfl, frame, pos⟩

theorem ScanKeeps.errorEntry {s t : State} (h : ScanKeeps s t) (e : Err) : ScanKeeps s (errorEntry e t) := by
  rw [errorEntry_eq]
  exact ⟨h.cfg, h.enc, h.pending, h.frame, h.pos⟩

theorem scanKeeps_refl (s : State) : ScanKeeps s s := ⟨rfl, rfl, rfl, rfl, Nat.le_refl _⟩

/-- Continuing from a state that keeps what `s` holds. -/
theorem Ends.keeping {s t : State} {o : Host.Outcome State Fault Refusal} (ho : Ends (ScanKeeps t) o) (h : ScanKeeps s t) :
    Ends (ScanKeeps s) o := ho.mono fun _ => h.trans

theorem needMore_keeps (s : State) : Ends (ScanKeeps s) (needMore s) :=
  ends_needMore ⟨rfl, rfl, rfl, rfl, Nat.le_refl _⟩ ((scanKeeps_refl s).errorEntry _)

theorem scanFrame_setComp {d : Decoder} {j : Nat} {c c' : Component} (at_j : d.comps[j]? = some c) (same : c'.header = c.header) :
    (d.setComp j c').scanFrame = d.scanFrame := by
  have comps : (d.comps.set j c').map Component.header = d.comps.map Component.header := by
    rw [List.map_set, same]
    obtain ⟨hj, hc⟩ := List.getElem?_eq_some_iff.1 at_j
    rw [← hc, ← List.getElem_map Component.header (h := by simpa using hj), List.set_getElem_self]
  unfold Decoder.scanFrame
  simp only [Decoder.setComp, comps]

theorem setComp_at {d : Decoder} {j : Nat} {c c' : Component} (at_j : d.comps[j]? = some c) : (d.setComp j c').comps[j]? = some c' := by
  obtain ⟨hj, _⟩ := List.getElem?_eq_some_iff.1 at_j
  exact List.getElem?_set_self hj

theorem readBit_keeps {s : State} {b : Bool} {d : Decoder} (h : readBit s.dec = .bit b d) : ScanKeeps s (s.withDec d) := by
  rcases readBit_bit h with ⟨_, _, rfl⟩ | ⟨_, _, _, _, ⟨_, _, rfl⟩ | ⟨_, _, _, rfl⟩⟩ <;>
    exact scanKeeps_withDec rfl (by dsimp only; omega)

theorem advanceCursors_frame {d : Decoder} {j : Nat} {c : Component} (at_j : d.comps[j]? = some c) :
    (advanceCursors d j c).scanFrame = d.scanFrame ∧ (advanceCursors d j c).pos = d.pos := by
  have cursors : ∀ du scanPos mcu, (d.atUnit j c du scanPos mcu).scanFrame = d.scanFrame :=
    fun du _ _ => scanFrame_setComp (c' := { c with du := du }) at_j rfl
  rcases advanceCursors_cases d j c with ⟨-, h⟩ | ⟨-, ⟨-, h⟩ | ⟨-, ⟨-, h⟩ | ⟨-, h⟩⟩⟩ <;> rw [h]
  · exact ⟨cursors _ _ _, rfl⟩
  · exact ⟨cursors _ _ _, rfl⟩
  · exact ⟨cursors _ _ _, rfl⟩
  · exact ⟨cursors 0 0 0, rfl⟩

theorem dataUnitComplete_keeps {s : State} {j : Nat} {c : Component} (at_j : s.dec.comps[j]? = some c) :
    Ends (ScanKeeps s) (dataUnitComplete s j c) := by
  refine ends_dataUnitComplete ((scanKeeps_refl s).errorEntry _) fun img samples pix present _ => ?_
  obtain ⟨frame, pos⟩ := advanceCursors_frame (d := { s.dec with img := some { img with pix := pix } }) at_j
  refine scanKeeps_withDec (frame.trans ?_) pos.ge
  simp only [Decoder.scanFrame, present]
  rfl

theorem withScratch_keeps {s : State} {j : Nat} {c : Component} (at_j : s.dec.comps[j]? = some c) (scratch : Vector Int 64) (k : Nat) :
    ScanKeeps s (s.withDec (s.dec.withScratch j { c with scratch := scratch } k)) :=
  scanKeeps_withDec (scanFrame_setComp (c' := { c with scratch := scratch }) at_j rfl) (Nat.le_refl _)

theorem addCoef_keeps {s : State} {j : Nat} {c : Component} (at_j : s.dec.comps[j]? = some c) (run : Nat) (v : Int) :
    Ends (ScanKeeps s) (addCoef s j c run v) :=
  ends_addCoef ((scanKeeps_refl s).errorEntry _) (fun _ _ _ => (withScratch_keeps at_j _ _).errorEntry _)
    (fun _ _ _ => withScratch_keeps at_j _ _)
    fun _ _ => (dataUnitComplete_keeps (setComp_at at_j)).keeping (withScratch_keeps at_j _ _)

theorem resolveAmplitude_keeps {s : State} {j : Nat} {c : Component} (at_j : s.dec.comps[j]? = some c) :
    Ends (ScanKeeps s) (resolveAmplitude s j c) :=
  ends_resolveAmplitude ((scanKeeps_refl s).errorEntry _)
    (fun p _ => (addCoef_keeps (setComp_at at_j) _ _).keeping
      (scanKeeps_withDec (scanFrame_setComp (c' := { c with pred := p }) at_j rfl) (Nat.le_refl _)))
    fun _ => (addCoef_keeps (s := s.withDec { s.dec with sub := .magnitude }) at_j _ _).keeping (scanKeeps_withDec rfl (Nat.le_refl _))

theorem eobStep_keeps {s : State} {j : Nat} {c : Component} (at_j : s.dec.comps[j]? = some c) : Ends (ScanKeeps s) (eobStep s j c) :=
  ends_eobStep fun scratch _ => (dataUnitComplete_keeps (setComp_at at_j)).keeping
    (scanKeeps_withDec (scanFrame_setComp (c' := { c with scratch := scratch }) at_j rfl) (Nat.le_refl _))

theorem settle_keeps (s : State) : Ends (ScanKeeps s) (settle s) :=
  ends_settle (fun _ => scanKeeps_refl s) (fun _ _ => scanKeeps_refl s)
    (fun _ _ active _ _ => resolveAmplitude_keeps (active_eq_some.1 active).2) fun _ _ active _ => eobStep_keeps (active_eq_some.1 active).2

theorem magnitudeBit_keeps (s : State) (c : Component) (b : Bool) : Ends (ScanKeeps s) (magnitudeBit s c b) := by
  have registers : ∀ {d : Decoder}, d.scanFrame = s.dec.scanFrame → d.pos = s.dec.pos → ScanKeeps s (s.withDec d) :=
    fun frame pos => scanKeeps_withDec frame pos.ge
  exact ends_magnitudeBit (fun _ => registers rfl rfl) (fun _ => (registers (d := appendCodeBit b s.dec) rfl rfl).errorEntry _)
    (fun _ => (registers (d := clearCode s.dec) rfl rfl).errorEntry _) ((settle_keeps _).keeping (registers rfl rfl))
    fun _ _ _ _ => (settle_keeps _).keeping (registers rfl rfl)

theorem scanUnit_keeps (s : State) : Ends (ScanKeeps s) (scanUnit s) := by
  refine ends_scanUnit (needMore_keeps s) (fun d h => ?_) (fun _ c b d _ _ h => (magnitudeBit_keeps _ c b).keeping (readBit_keeps h))
    (fun _ _ b d _ _ _ h => ?_) (fun _ _ active _ _ => resolveAmplitude_keeps (active_eq_some.1 active).2)
    fun _ _ active _ => eobStep_keeps (active_eq_some.1 active).2
  · obtain ⟨_, _, _, _, rfl⟩ := readBit_markerSeen h
    exact scanKeeps_withDec rfl (Nat.le_refl _)
  · have keeps := readBit_keeps h
    exact (settle_keeps _).keeping (scanKeeps_withDec keeps.frame keeps.pos)

/-- A turn of the running Feed inside the scan. -/
theorem step_in_scan_keeps {s : State} (running : s.host.running = true) (seg : s.dec.seg = .scan) : Ends (ScanKeeps s) (step s) :=
  ends_step_running running (fun _ => ⟨rfl, rfl, rfl, rfl, Nat.le_refl _⟩) (fun _ => (scanKeeps_refl s).errorEntry _)
    fun _ _ => unitOfWork_scan seg ▸ scanUnit_keeps s

/-- Settles O49: the registers left out of `scanFrame` are the only ones that a step inside the scan writes. -/
theorem scanKeepsTablesAndHeaders : Obligations.ScanKeepsTablesAndHeaders := by
  intro s t running seg h
  obtain ⟨cfg, enc, pending, frame, -⟩ := step_in_scan_keeps running seg t h
  have comps : t.dec.comps.map Component.header = s.dec.comps.map Component.header := congrArg Decoder.comps frame
  have image : t.dec.img.map Image.header = s.dec.img.map Image.header := congrArg Decoder.img frame
  simp only [Decoder.scanFrame, Decoder.mk.injEq] at frame
  obtain ⟨mode, sofCode, avail, eos, input, qt, dcTables, acTables, framePresent, precision, height, width, nf, hmax, vmax, mcux, mcuy,
    mcuTotal, -, scanPresent, ns, order, ss, se, ah, al, -, density, jfifVersion, comment, cancel⟩ : _ ∧ _ := by simpa using frame
  refine ⟨cfg, enc, pending, input, avail, eos, cancel, qt, dcTables, acTables, framePresent, mode, sofCode, precision, width, height, nf,
    hmax, vmax, mcux, mcuy, mcuTotal, scanPresent, ns, order, ss, se, ah, al, comment, density, jfifVersion, ?_, fun j c hc => ?_, fun absent => ?_,
    fun img present => ?_⟩
  · simpa using congrArg List.length comps
  · have at_j := congrArg (·[j]?) comps
    simp only [List.getElem?_map, hc, Option.map_some, Option.map_eq_some_iff] at at_j
    obtain ⟨c', hc', same⟩ := at_j
    simp only [Component.header, Component.mk.injEq] at same
    obtain ⟨id, index, h, v, tq, td, ta, -⟩ := same
    exact ⟨c', hc', id, index, h, v, tq, td, ta⟩
  · simpa [absent] using image
  · simp only [present, Option.map_some, Option.map_eq_some_iff] at image
    obtain ⟨img', hi, same⟩ := image
    simp only [Image.header, Image.mk.injEq] at same
    obtain ⟨width, height, ncomp, density, -⟩ := same
    exact ⟨img', hi, width, height, ncomp, density⟩

theorem exec_pos_le (i : Instr) (s : State) : Ends (fun t => s.dec.pos ≤ t.dec.pos) (exec i s) := by
  intro t h
  obtain ⟨-, -, -, -, -, -, -, -, -, -, -, -, -, -, -, -, -, -, pos, -⟩ := instructionsWriteOnlyTheirRegisters i s t h
  exact pos

/-- Settles O50: outside the scan a step runs an instruction, holds, or raises. -/
theorem positionNeverDecreases : Obligations.PositionNeverDecreases := by
  intro s t running
  have raised : ∀ e, s.dec.pos ≤ (errorEntry e s).dec.pos := fun e => ((scanKeeps_refl s).errorEntry e).pos
  have held : s.dec.pos ≤ (feedReturn s).dec.pos := Nat.le_refl _
  exact ends_step_running (P := fun t => s.dec.pos ≤ t.dec.pos) running (fun _ => held) (fun _ => raised _)
    (fun live _ => ends_unitOfWork live (fun _ => ends_needMore held (raised _)) (fun _ => raised _) (fun i _ => exec_pos_le i s)
      fun _ => (scanUnit_keeps s).mono fun _ h => h.pos) t

end Sys2Proof.Machine
end

section
/-! SUPPORT. The invariant `Safe` taken apart: what it says in every segment state, and what it adds in `SCAN` (10_state R52, R53); an
instruction outside the scan keeps it. -/

namespace Sys2Proof.Machine

/-- Settles O51: no byte is supplied, every register is 0, no header is present, and no clause about `SCAN`, `DONE` or `ERROR` applies. -/
theorem resetIsSafe : Obligations.ResetIsSafe where
  input := ⟨List.Pairwise.nil, fun _ => ⟨nofun, nofun⟩, Nat.zero_le _⟩
  ranges := ⟨Nat.zero_le _, Nat.zero_le _, Nat.zero_le _, by decide, Nat.zero_le _, Nat.zero_le _, Nat.zero_le _, by decide, nofun, nofun⟩
  completion := ⟨rfl, rfl, nofun, nofun⟩
  frame := ⟨fun _ => ⟨rfl, rfl⟩, nofun, nofun, nofun, nofun, nofun, nofun, nofun, nofun, nofun⟩
  scan := ⟨nofun, nofun, nofun, nofun, nofun, nofun⟩
  coverage := ⟨nofun, nofun⟩

/-! ### The parts of the invariant -/

/-- What the invariant says in every segment state, but for the flags of completion. -/
structure Decoder.BaseOk (d : Decoder) : Prop where
  input : d.InputOk
  ranges : d.RangesOk
  frame : d.FrameOk
  order : d.scanPresent = true → d.order.length = d.ns ∧ d.ns = d.nf ∧ d.order.Nodup ∧ ∀ j ∈ d.order, j < d.nf
  complete : d.scanComplete = true → d.scanPresent = true
  covered : d.scanComplete = true → ∀ img, d.img = some img → ∀ o, o < imageSize d → (Memory.read img.pix o).isSome = true

/-- The data-unit counters agree with the scan position (10_state R39). -/
def Decoder.UnitsOk (d : Decoder) : Prop :=
  ∀ (q j : Nat) (c : Component), d.order[q]? = some j → d.comps[j]? = some c →
    (q = d.scanPos → c.du < c.h * c.v) ∧ (q ≠ d.scanPos → c.du = 0)

/-- Every cell of the data units before the cursors holds a value (43_mcu_color R153). -/
def Decoder.WrittenOk (d : Decoder) : Prop :=
  ∀ img, d.img = some img → ∀ (q j : Nat) (c : Component), d.order[q]? = some j → d.comps[j]? = some c →
    ∀ x y, x < d.width.toNat → y < d.height.toNat → decodedBefore d q c x y →
    (Memory.read img.pix (pixelOffset d (x, y) + c.index)).isSome = true

/-- What the invariant says in `SCAN` at every point of a unit of work: between its bit and what the bit completes (42_entropy R127), `D.k`
may be 64 and an amplitude may be whole. -/
structure Decoder.InScan (d : Decoder) : Prop where
  seg : d.seg = .scan
  base : d.BaseOk
  completion : d.CompletionOk
  framePresent : d.framePresent = true
  scanPresent : d.scanPresent = true
  baseline : d.mode = .baseline
  tables : ∀ c ∈ d.comps, d.dcTables[c.td].defined = true ∧ d.acTables[c.ta].defined = true
  incomplete : d.scanComplete = false
  scanPos : d.scanPos < d.ns
  mcu : d.mcu < d.mcuTotal
  hwidth : d.hwidth ≤ 15
  units : d.UnitsOk
  written : d.WrittenOk

theorem State.Safe.base {s : State} (h : s.Safe) : s.dec.BaseOk :=
  ⟨h.input, h.ranges, h.frame, h.scan.order, h.scan.complete, h.coverage.finished⟩

theorem State.Safe.inScan {s : State} (h : s.Safe) (seg : s.dec.seg = .scan) : s.dec.InScan := by
  obtain ⟨frame, scan, mode, tables⟩ := h.scan.tables seg
  obtain ⟨incomplete, scanPos, mcu, -, hwidth⟩ := h.scan.cursors seg
  exact ⟨seg, h.base, h.completion, frame, scan, mode, tables, incomplete, scanPos, mcu, hwidth, h.scan.units seg, h.coverage.scanning seg⟩

/-- Outside `SCAN` the clauses about the scan say nothing. -/
theorem safe_of_base {s : State} (base : s.dec.BaseOk) (completion : s.dec.CompletionOk) (seg : s.dec.seg ≠ .scan) : s.Safe where
  input := base.input
  ranges := base.ranges
  completion := completion
  frame := base.frame
  scan := ⟨base.order, base.complete, fun h => absurd h seg, fun h => absurd h seg, fun h => absurd h seg, fun h => absurd h seg⟩
  coverage := ⟨fun h => absurd h seg, base.covered⟩

/-- Between two units of work of the scan. -/
theorem Decoder.InScan.safe {s : State} (h : s.dec.InScan) (k : s.dec.k ≤ 63)
    (settled : s.dec.sub = .magnitude ∨ s.dec.sub = .amplitude ∧ s.dec.ampn < s.dec.mag) : s.Safe where
  input := h.base.input
  ranges := h.base.ranges
  completion := h.completion
  frame := h.base.frame
  scan :=
    { order := h.base.order
      complete := h.base.complete
      tables := fun _ => ⟨h.framePresent, h.scanPresent, h.baseline, h.tables⟩
      cursors := fun _ => ⟨h.incomplete, h.scanPos, h.mcu, k, h.hwidth⟩
      settled := fun _ => settled
      units := fun _ => h.units }
  coverage := ⟨fun _ => h.written, h.base.covered⟩

theorem State.Safe.of_dec_eq {s t : State} (h : s.Safe) (dec : t.dec = s.dec) : t.Safe :=
  ⟨dec ▸ h.input, dec ▸ h.ranges, dec ▸ h.completion, dec ▸ h.frame, dec ▸ h.scan, dec ▸ h.coverage⟩

/-! ### Errors, holds and moves between segment states -/

theorem errorEntry_safe {s : State} (base : s.dec.BaseOk) (e : Err) : (errorEntry e s).Safe := by
  rw [errorEntry_eq]
  exact safe_of_base ⟨{ base.input with }, { base.ranges with }, { base.frame with sofCode := nofun }, base.order, base.complete, base.covered⟩
    ⟨rfl, rfl, fun _ => rfl, nofun⟩ nofun

theorem feedReturn_safe {s : State} (h : s.Safe) : (feedReturn s).Safe := h.of_dec_eq rfl

theorem needMore_safe {s : State} (h : s.Safe) : Ends State.Safe (needMore s) := ends_needMore (feedReturn_safe h) (errorEntry_safe h.base _)

/-- Bytes consumed, and another segment state or start-of-frame code. -/
theorem Decoder.BaseOk.move {d : Decoder} (h : d.BaseOk) {pos : Nat} {seg : Seg} {sofCode : Byte} (consumed : pos ≤ d.avail)
    (sof : seg = .sof → (sofInstr sofCode).isSome = true) : Decoder.BaseOk { d with pos := pos, seg := seg, sofCode := sofCode } :=
  ⟨{ h.input with consumed := consumed }, { h.ranges with }, { h.frame with sofCode := sof }, h.order, h.complete, h.covered⟩

/-- The working registers of the entropy decoder and the bit reader, within their ranges. -/
theorem Decoder.BaseOk.registers {d : Decoder} (h : d.BaseOk) {sub : Sub} {acc : Byte} {pos nbits k hwidth run mag ampn : Nat} {hcode amp : U16}
    (consumed : pos ≤ d.avail)
    (ranges : Decoder.RangesOk { d with
      sub := sub, pos := pos, acc := acc, nbits := nbits, k := k, hcode := hcode, hwidth := hwidth, run := run, mag := mag
      amp := amp, ampn := ampn }) :
    Decoder.BaseOk { d with
      sub := sub, pos := pos, acc := acc, nbits := nbits, k := k, hcode := hcode, hwidth := hwidth, run := run, mag := mag
      amp := amp, ampn := ampn } :=
  ⟨{ h.input with consumed := consumed }, ranges, { h.frame with }, h.order, h.complete, h.covered⟩

/-- A register without bits yet. -/
theorem noBits_lt : (0 : U16).toNat < 2 ^ 0 := by decide

theorem ne_error_of_live {g : Seg} (live : g.final = false) : g ≠ .error := by
  rintro rfl
  cases live

theorem ne_done_of_live {g : Seg} (live : g.final = false) : g ≠ .done := by
  rintro rfl
  cases live

theorem Decoder.CompletionOk.no_error {d : Decoder} (h : d.CompletionOk) (live : d.seg.final = false) : d.error.isSome = false := by
  rw [h.error, decide_eq_false (ne_error_of_live live)]

theorem Decoder.CompletionOk.no_cancel {d : Decoder} (h : d.CompletionOk) (live : d.seg.final = false) : d.cancel ≠ true :=
  fun cancel => ne_error_of_live live (h.cancel cancel)

/-- The flags of completion agree in every segment state that is not final. -/
theorem Decoder.CompletionOk.of_live {d d' : Decoder} (h : d.CompletionOk) (live : d.seg.final = false) (live' : d'.seg.final = false)
    (completed : d'.completed = d.completed) (error : d'.error = d.error) (cancel : d'.cancel = d.cancel) : d'.CompletionOk where
  completed := by rw [completed, h.completed, live, live']
  error := by rw [error, h.no_error live, decide_eq_false (ne_error_of_live live')]
  cancel := fun c => absurd (cancel ▸ c) (h.no_cancel live)
  finished := fun done => absurd done (ne_done_of_live live')

/-! ### Headers -/

theorem mode_ne_none_of_modeOf {i : Instr} {mode : Mode} (h : modeOf i = some mode) : mode ≠ .none := by
  unfold modeOf at h
  split at h <;> cases h <;> decide

theorem scratchOk_zero : ScratchOk (Vector.replicate 64 0) := fun i => by
  rw [Fin.getElem_fin, Vector.getElem_replicate]
  rfl

theorem tableWrites_base {i : Instr} {d d' : Decoder} (writes : TableWrites i d d') (h : d.BaseOk) : d'.BaseOk := by
  cases writes with
  | none => exact h
  | quant keeps =>
    exact ⟨{ h.input with }, { h.ranges with }, { h.frame with quant := fun c hc => keeps _ (h.frame.quant c hc) },
      h.order, h.complete, h.covered⟩
  | huff => exact ⟨{ h.input with }, { h.ranges with }, { h.frame with }, h.order, h.complete, h.covered⟩

/-- An accepted frame header (40_segments R99, R100); no scan header came before it. -/
theorem commitFrame_base {cfg : Params} {d : Decoder} {mode : Mode} {p : List Byte} {cs : List Component} (h : d.BaseOk)
    (accepted : checkFrame cfg d p = .ok cs) (hm : mode ≠ .none) : (commitFrame d mode p cs).BaseOk := by
  obtain ⟨noFrame, -, height, width, nf_pos, nf_le, comps⟩ := checkFrame_ok accepted
  obtain ⟨count, positions, fields⟩ := frameComponents_ok comps
  have noScan : d.scanPresent ≠ true := by simp [(h.frame.absent noFrame).2]
  have noComplete : d.scanComplete ≠ true := fun c => noScan (h.complete c)
  have nonempty : cs ≠ [] := List.ne_nil_of_length_pos (by omega)
  have factorsOk : ∀ c ∈ cs, factorOk c.h ∧ factorOk c.v ∧ d.qt[c.tq].defined = true := fun c hc => by
    obtain ⟨ch, cv, tq, -⟩ := fields c hc
    exact ⟨ch, cv, tq⟩
  refine ⟨{ h.input with }, { h.ranges with pred := fun c hc => ?_, scratch := fun c hc => ?_ }, ?_, fun s => absurd s noScan,
    fun c => absurd c noComplete, fun c => absurd c noComplete⟩
  · obtain ⟨-, -, -, pred, -⟩ := fields c hc
    rw [pred]
    rfl
  · obtain ⟨-, -, -, -, -, scratch⟩ := fields c hc
    rw [scratch]
    exact scratchOk_zero
  · exact
    { absent := nofun
      count := fun _ => ⟨count, nf_pos, nf_le⟩
      positions := fun j c hc => (positions j c hc).trans (Nat.zero_add j)
      factors := fun c hc => by
        obtain ⟨ch, cv, -⟩ := factorsOk c hc
        exact ⟨ch, cv, le_maxFactor _ hc, le_maxFactor _ hc⟩
      maxima := fun _ =>
        ⟨maxFactor_ok _ (fun c hc => (factorsOk c hc).left) nonempty, maxFactor_ok _ (fun c hc => (factorsOk c hc).right.left) nonempty⟩
      quant := fun c hc => (factorsOk c hc).right.right
      grid := fun _ => ⟨rfl, rfl, rfl, width, height⟩
      image := fun _ => ⟨_, rfl, rfl, rfl, rfl, List.Pairwise.nil, nofun⟩
      mode := fun _ => hm
      sofCode := h.frame.sofCode }

theorem segmentWrites_base {cfg : Params} {p : List Byte} {i : Instr} {d d' : Decoder} (writes : SegmentWrites cfg p i d d') (h : d.BaseOk) :
    d'.BaseOk := by
  cases writes with
  | tables writes => exact tableWrites_base writes h
  | frame mode accepted => exact commitFrame_base h accepted (mode_ne_none_of_modeOf mode)
  | jfif => exact ⟨{ h.input with }, { h.ranges with }, { h.frame with }, h.order, h.complete, h.covered⟩
  | comment => exact ⟨{ h.input with }, { h.ranges with }, { h.frame with }, h.order, h.complete, h.covered⟩

/-- No handler writes the position, the extent of IN or the flags of completion before it retires. -/
theorem segmentWrites_flags {cfg : Params} {p : List Byte} {i : Instr} {d d' : Decoder} (writes : SegmentWrites cfg p i d d') :
    d'.pos = d.pos ∧ d'.avail = d.avail ∧ d'.completed = d.completed ∧ d'.error = d.error ∧ d'.cancel = d.cancel := by
  cases writes with
  | tables writes => cases writes <;> exact ⟨rfl, rfl, rfl, rfl, rfl⟩
  | frame mode accepted => exact ⟨rfl, rfl, rfl, rfl, rfl⟩
  | jfif => exact ⟨rfl, rfl, rfl, rfl, rfl⟩
  | comment => exact ⟨rfl, rfl, rfl, rfl, rfl⟩

/-- `n` different numbers below `n` are all of them. -/
theorem mem_of_nodup_of_length {l : List Nat} {n j : Nat} (nodup : l.Nodup) (lt : ∀ i ∈ l, i < n) (length : l.length = n) (hj : j < n) :
    j ∈ l := by
  have all : l.toFinset = Finset.range n :=
    Finset.eq_of_subset_of_card_le (fun i hi => Finset.mem_range.2 (lt i (List.mem_toFinset.1 hi)))
      (by rw [List.toFinset_card_of_nodup nodup, length, Finset.card_range])
  exact List.mem_toFinset.1 (all ▸ Finset.mem_range.2 hj)

theorem assignTables_length (cs : List Component) (es : List ScanEntry) : (assignTables cs es).length = cs.length := by
  induction es generalizing cs with
  | nil => rfl
  | cons e es ih => rw [assignTables, ih, List.length_modify]

theorem ceilDiv_pos {a b : Nat} (ha : 0 < a) (hb : 0 < b) : 0 < ceilDiv a b := Nat.div_pos (by omega) hb

theorem factor_pos {n : Nat} (h : factorOk n) : 0 < n := by
  unfold factorOk at h
  omega

theorem Decoder.FrameOk.mcuTotal_pos {d : Decoder} (h : d.FrameOk) (present : d.framePresent = true) : 0 < d.mcuTotal := by
  obtain ⟨hmax, vmax⟩ := h.maxima present
  obtain ⟨mcux, mcuy, total, width, height⟩ := h.grid present
  rw [total, mcux, mcuy]
  exact Nat.mul_pos (ceilDiv_pos width (Nat.mul_pos (by decide) (factor_pos hmax)))
    (ceilDiv_pos height (Nat.mul_pos (by decide) (factor_pos vmax)))

/-- `c` is `c0` as the scan header leaves it: predictor and counter reset, table selectors written (40_segments R103). -/
def startedFrom (c0 c : Component) : Prop := c = { c0 with pred := 0, du := 0, td := c.td, ta := c.ta }

theorem commitScan_comp {d : Decoder} {p : List Byte} {es : List ScanEntry} (h : d.FrameOk) (accepted : checkScan d p = .ok es) {j : Nat}
    {c : Component} (hc : (commitScan d es).comps[j]? = some c) :
    ∃ c0, d.comps[j]? = some c0 ∧ startedFrom c0 c ∧ d.dcTables[c.td].defined = true ∧ d.acTables[c.ta].defined = true := by
  obtain ⟨present, -, -, -, -, entries⟩ := checkScan_ok accepted
  obtain ⟨length, fields, nodup⟩ := scanEntries_ok entries
  obtain ⟨c0, h0, id, index, hh, hv, tq, scratch, pred, du, tables⟩ := commit_comp hc
  obtain ⟨hj, -⟩ := List.getElem?_eq_some_iff.1 h0
  obtain ⟨count, -⟩ := h.count present
  have mem : j ∈ es.map ScanEntry.comp := by
    refine mem_of_nodup_of_length nodup (fun i hi => ?_) (by rw [List.length_map, length]) (count ▸ hj)
    obtain ⟨e, he, rfl⟩ := List.mem_map.1 hi
    exact count ▸ (fields e he).1
  obtain ⟨e, he, rfl⟩ := List.mem_map.1 mem
  obtain ⟨e', find⟩ := Option.isSome_iff_exists.1
    (List.find?_isSome.2 ⟨e, List.mem_reverse.2 he, beq_self_eq_true e.comp⟩ : (es.reverse.find? fun x => x.comp == e.comp).isSome = true)
  obtain ⟨-, -, dc, ac⟩ := fields e' (List.mem_reverse.1 (List.mem_of_find?_eq_some find))
  obtain ⟨td, ta⟩ := tables e' find
  refine ⟨c0, h0, ?_, by rw [getFin_congr _ td]; exact dc, by rw [getFin_congr _ ta]; exact ac⟩
  cases c
  cases c0
  simp_all [startedFrom]

theorem commitScan_mem {d : Decoder} {p : List Byte} {es : List ScanEntry} (h : d.FrameOk) (accepted : checkScan d p = .ok es) {c : Component}
    (hc : c ∈ (commitScan d es).comps) :
    ∃ c0 ∈ d.comps, startedFrom c0 c ∧ d.dcTables[c.td].defined = true ∧ d.acTables[c.ta].defined = true := by
  obtain ⟨j, hj⟩ := List.mem_iff_getElem?.1 hc
  obtain ⟨c0, h0, hc0⟩ := commitScan_comp h accepted hj
  exact ⟨c0, List.mem_of_getElem? h0, hc0⟩

theorem commitScan_frameOk {d : Decoder} {p : List Byte} {es : List ScanEntry} (h : d.FrameOk) (accepted : checkScan d p = .ok es) :
    (commitScan d es).FrameOk := by
  obtain ⟨present, -⟩ := checkScan_ok accepted
  exact
    { h with
      absent := fun absent => by cases present.symm.trans absent
      count := fun _ => by
        obtain ⟨count, bounds⟩ := h.count present
        exact ⟨((assignTables_length _ _).trans (List.length_map _)).trans count, bounds⟩
      positions := fun j c hc => by
        obtain ⟨c0, h0, started, -⟩ := commitScan_comp h accepted hc
        rw [started]
        exact h.positions j c0 h0
      factors := fun c hc => by
        obtain ⟨c0, h0, started, -⟩ := commitScan_mem h accepted hc
        rw [started]
        exact h.factors c0 h0
      quant := fun c hc => by
        obtain ⟨c0, h0, started, -⟩ := commitScan_mem h accepted hc
        rw [started]
        exact h.quant c0 h0 }

theorem commitScan_rangesOk {d : Decoder} {p : List Byte} {es : List ScanEntry} (h : d.BaseOk) (accepted : checkScan d p = .ok es) :
    (commitScan d es).RangesOk := by
  refine ⟨Nat.zero_le _, Nat.zero_le _, Nat.zero_le _, noBits_lt, Nat.zero_le _, Nat.zero_le _, Nat.zero_le _, noBits_lt, fun c hc => ?_,
    fun c hc => ?_⟩ <;>
    obtain ⟨c0, h0, started, -⟩ := commitScan_mem h.frame accepted hc <;> rw [started]
  · rfl
  · exact h.ranges.scratch c0 h0

/-- An accepted scan header starts the scan at its first data unit (40_segments R102, R103). -/
theorem commitScan_inScan {d : Decoder} {p : List Byte} {es : List ScanEntry} {pos : Nat} (h : d.BaseOk) (completion : d.CompletionOk)
    (live : d.seg.final = false) (accepted : checkScan d p = .ok es) (consumed : pos ≤ d.avail) :
    Decoder.InScan { commitScan d es with pos := pos, seg := .scan } := by
  obtain ⟨present, noScan, extended, progressive, lossless, entries⟩ := checkScan_ok accepted
  obtain ⟨length, fields, nodup⟩ := scanEntries_ok entries
  obtain ⟨count, nf_pos, nf_le⟩ := h.frame.count present
  have noComplete : d.scanComplete ≠ true := fun c => by cases noScan.symm.trans (h.complete c)
  refine
    { seg := rfl
      base :=
        { input := { h.input with consumed := consumed }
          ranges := { commitScan_rangesOk h accepted with }
          frame := { commitScan_frameOk h.frame accepted with sofCode := nofun }
          order := fun _ => ⟨List.length_map _, length, nodup, fun j hj => ?_⟩
          complete := fun c => absurd c noComplete
          covered := fun c => absurd c noComplete }
      completion := completion.of_live live rfl rfl rfl rfl
      framePresent := present
      scanPresent := rfl
      baseline := ?_
      tables := fun c hc => (commitScan_mem h.frame accepted hc).elim fun _ h0 => h0.2.2
      incomplete := Bool.eq_false_iff.2 noComplete
      scanPos := (length ▸ nf_pos : 0 < es.length)
      mcu := h.frame.mcuTotal_pos present
      hwidth := Nat.zero_le _
      units := fun q j c _ hc => ?_
      written := fun img _ q j c _ hc x y _ _ before => ?_ }
  · obtain ⟨e, he, rfl⟩ := List.mem_map.1 hj
    exact count ▸ (fields e he).1
  · have started := h.frame.mode present
    show d.mode = .baseline
    cases mode : d.mode <;> simp_all
  · obtain ⟨c0, h0, started, -⟩ := commitScan_comp h.frame accepted hc
    obtain ⟨ch, cv, -⟩ := h.frame.factors c0 (List.mem_of_getElem? h0)
    rw [started]
    exact ⟨fun _ => Nat.mul_pos (factor_pos ch) (factor_pos cv), fun _ => rfl⟩
  · obtain ⟨c0, -, started, -⟩ := commitScan_comp h.frame accepted hc
    have du : c.du = 0 := by rw [started]
    rcases before with mcu | ⟨-, scanPos | ⟨-, unit⟩⟩
    · exact absurd mcu (Nat.not_lt_zero _)
    · exact absurd scanPos (Nat.not_lt_zero _)
    · exact absurd (du ▸ unit) (Nat.not_lt_zero _)

/-! ### Instructions -/

theorem Dispatches.live {s : State} {i : Instr} (h : Dispatches s i) : s.dec.seg.final = false := by
  rcases h with ⟨seg, -⟩ | h
  · rw [seg]
    rfl
  · exact handlerOf_not_final h

theorem Dispatches.not_scan {s : State} {i : Instr} (h : Dispatches s i) : s.dec.seg ≠ .scan := by
  rcases h with ⟨seg, -⟩ | h
  · rw [seg]
    decide
  · intro seg
    rw [seg] at h
    unfold handlerOf at h
    split at h <;> cases h

theorem Dispatches.marker {s : State} {i : Instr} (h : Dispatches s i) (other : handlerOf i ≠ some s.dec.seg) : s.dec.pos + 2 ≤ s.dec.avail :=
  (h.resolve_right other).2

theorem sofInstr_of_modeOf {i : Instr} {mode : Mode} (h : modeOf i = some mode) : (sofInstr i.codeByte).isSome = true := by
  rw [sofInstr_codeByte (handlerOf_of_modeOf h)]
  rfl

theorem handlerOf_ne_scan {i : Instr} {g : Seg} (h : handlerOf i = some g) : g ≠ .scan := by
  unfold handlerOf at h
  split at h <;> cases h <;> decide

/-- An instruction outside the scan keeps the invariant. -/
theorem exec_safe {s : State} {i : Instr} (h : s.Safe) (dispatches : Dispatches s i) : Ends State.Safe (exec i s) := by
  intro t ht
  have live := dispatches.live
  have flags : ∀ {d : Decoder}, d.seg.final = false → d.completed = s.dec.completed → d.error = s.dec.error → d.cancel = s.dec.cancel →
      d.CompletionOk := h.completion.of_live live
  cases exec_ends i s t ht with
  | symbolRaises e => exact errorEntry_safe h.base e
  | endsBlock => exact safe_of_base (h.base.registers h.input.consumed { h.ranges with }) (flags live rfl rfl rfl) dispatches.not_scan
  | startsAmplitude run mag _ hrun hmag =>
    exact safe_of_base
      (h.base.registers h.input.consumed { h.ranges with run := hrun, mag := hmag, ampn := Nat.zero_le _, amp := noBits_lt })
      (flags live rfl rfl rfl) dispatches.not_scan
  | refuses e _ dispatched => exact errorEntry_safe (h.base.move (pos := s.dec.pos + 2) (dispatches.marker (by simp [dispatched])) h.frame.sofCode) e
  | startOfImage => exact safe_of_base (h.base.move (dispatches.marker nofun) nofun) (flags rfl rfl rfl rfl) nofun
  | delivers img complete present =>
    have pos := dispatches.marker (i := .eoi) nofun
    rw [signalCompletion_eq]
    refine safe_of_base ⟨{ h.input with consumed := pos }, { h.ranges with }, { h.frame with image := fun frame => ?_, sofCode := nofun },
      h.scan.order, h.scan.complete, fun _ img' hi => ?_⟩
      ⟨rfl, h.completion.no_error live, fun c => absurd c (h.completion.no_cancel live), fun _ => complete⟩ nofun
    · obtain ⟨img', hi, image⟩ := h.frame.image frame
      obtain rfl : img = img' := Option.some.inj (present.symm.trans hi)
      exact ⟨_, rfl, image⟩
    · cases hi
      exact h.coverage.finished complete img present
  | selects handler other sof =>
    exact safe_of_base (h.base.move (dispatches.marker fun eq => other (Option.some.inj (eq.symm.trans handler))) fun eq => absurd eq sof)
      (flags (handlerOf_not_final handler) rfl rfl rfl) (handlerOf_ne_scan handler)
  | selectsFrame mode other =>
    have handler := handlerOf_of_modeOf mode
    exact safe_of_base
      (h.base.move (dispatches.marker fun eq => other (Option.some.inj (eq.symm.trans handler))) fun _ => sofInstr_of_modeOf mode)
      (flags rfl rfl rfl rfl) nofun
  | holds => exact feedReturn_safe h
  | fails e _ writes => exact errorEntry_safe (tableWrites_base writes h.base) e
  | @retires _ d p _ at_pos writes =>
    obtain ⟨pos, avail, completed, error, cancel⟩ := segmentWrites_flags writes
    exact safe_of_base ((segmentWrites_base writes h.base).move (pos := d.pos + (p.length + 2)) (by rw [pos, avail]; exact at_pos.1) nofun)
      (flags rfl completed error cancel) nofun
  | startsScan seg at_pos accepted =>
    exact Decoder.InScan.safe (commitScan_inScan h.base h.completion live accepted at_pos.1) (Nat.zero_le _) (.inl rfl)

end Sys2Proof.Machine
end

section
/-! SUPPORT. A unit of work in `SCAN` keeps the invariant (42_entropy R127 to R139, 43_mcu_color R143 to R153), and so does every step. -/

namespace Sys2Proof.Machine

/-! ### A component's registers and the working registers -/

theorem mem_setComp {d : Decoder} {P : Component → Prop} (all : ∀ c ∈ d.comps, P c) {j : Nat} {c' : Component} (new : P c') :
    ∀ c ∈ (d.setComp j c').comps, P c := fun c hc => (List.mem_or_eq_of_mem_set hc).elim (all c) fun eq => eq ▸ new

/-- What a lookup finds after the registers of the component at `j` are written. -/
theorem setComp_lookup {d : Decoder} {j i : Nat} {c c0 c' : Component} (at_j : d.comps[j]? = some c0) (h : (d.setComp j c').comps[i]? = some c) :
    i = j ∧ c = c' ∨ i ≠ j ∧ d.comps[i]? = some c := by
  by_cases hij : i = j
  · subst hij
    exact .inl ⟨rfl, Option.some.inj (h.symm.trans (setComp_at at_j))⟩
  · exact .inr ⟨hij, (List.getElem?_set_ne (Ne.symm hij)).symm.trans h⟩

theorem Decoder.BaseOk.setComp {d : Decoder} (h : d.BaseOk) {j : Nat} {c : Component} (at_j : d.comps[j]? = some c) {pred : Int} {du : Nat}
    {scratch : Vector Int 64} (predOk : inI32 pred = true) (scratchOk : ScratchOk scratch) :
    (d.setComp j { c with pred := pred, du := du, scratch := scratch }).BaseOk := by
  have mem : c ∈ d.comps := List.mem_of_getElem? at_j
  refine ⟨{ h.input with }, { h.ranges with pred := mem_setComp h.ranges.pred predOk, scratch := mem_setComp h.ranges.scratch scratchOk },
    { h.frame with
      absent := fun absent => ?_
      count := fun present => ⟨List.length_set.trans (h.frame.count present).1, (h.frame.count present).2⟩
      positions := fun i c' hc' => ?_
      factors := mem_setComp h.frame.factors (h.frame.factors c mem)
      quant := mem_setComp h.frame.quant (h.frame.quant c mem) },
    h.order, h.complete, h.covered⟩
  · rw [(h.frame.absent absent).1] at mem
    cases mem
  · rcases setComp_lookup at_j hc' with ⟨eq, rfl⟩ | ⟨-, hi⟩
    · exact (h.frame.positions j c at_j).trans eq.symm
    · exact h.frame.positions i c' hi

/-- The working registers of the entropy decoder and the bit reader. -/
theorem Decoder.InScan.registers {d : Decoder} (h : d.InScan) {sub : Sub} {acc : Byte} {pos nbits k hwidth run mag ampn : Nat} {hcode amp : U16}
    (consumed : pos ≤ d.avail) (hw : hwidth ≤ 15)
    (ranges : Decoder.RangesOk { d with
      sub := sub, pos := pos, acc := acc, nbits := nbits, k := k, hcode := hcode, hwidth := hwidth, run := run, mag := mag
      amp := amp, ampn := ampn }) :
    Decoder.InScan { d with
      sub := sub, pos := pos, acc := acc, nbits := nbits, k := k, hcode := hcode, hwidth := hwidth, run := run, mag := mag
      amp := amp, ampn := ampn } :=
  { h with base := h.base.registers consumed ranges, completion := { h.completion with }, hwidth := hw }

/-- The predictor and the scratch buffer of a component, the coefficient index and the sub-state. -/
theorem Decoder.InScan.setCoefficients {d : Decoder} (h : d.InScan) {j k : Nat} {c : Component} (at_j : d.comps[j]? = some c) {sub : Sub} {pred : Int}
    {scratch : Vector Int 64} (hk : k ≤ 64) (predOk : inI32 pred = true) (scratchOk : ScratchOk scratch) :
    Decoder.InScan { d.setComp j { c with pred := pred, scratch := scratch } with k := k, sub := sub } := by
  have base := h.base.setComp at_j (du := c.du) predOk scratchOk
  refine
    { h with
      base := base.registers base.input.consumed { base.ranges with k := hk }
      completion := { h.completion with }
      tables := mem_setComp h.tables (h.tables c (List.mem_of_getElem? at_j))
      units := fun q i c' hq hc' => ?_
      written := fun img hi q i c' hq hc' => ?_ }
  · rcases setComp_lookup at_j hc' with ⟨rfl, rfl⟩ | ⟨-, hi⟩
    · exact h.units q _ c hq at_j
    · exact h.units q i c' hq hi
  · rcases setComp_lookup at_j hc' with ⟨rfl, rfl⟩ | ⟨-, hc⟩
    · exact h.written img hi q _ c hq at_j
    · exact h.written img hi q i c' hq hc

/-! ### Placement (43_mcu_color R143 to R147) -/

theorem Decoder.InScan.comp_of_lt {d : Decoder} (h : d.InScan) {i : Nat} (hi : i < d.nf) :
    ∃ q c, q < d.ns ∧ d.order[q]? = some i ∧ d.comps[i]? = some c ∧ c.index = i := by
  obtain ⟨length, ns, nodup, lt⟩ := h.base.order h.scanPresent
  obtain ⟨count, -⟩ := h.base.frame.count h.framePresent
  obtain ⟨q, hq, at_q⟩ := List.mem_iff_getElem.1 (mem_of_nodup_of_length nodup lt (length.trans ns) hi)
  have comp := List.getElem?_eq_getElem (l := d.comps) (i := i) (by omega)
  exact ⟨q, _, by omega, List.getElem?_eq_some_iff.2 ⟨hq, at_q⟩, comp, h.base.frame.positions _ _ comp⟩

/-- The active component is the only one at its scan position, and its index is its position. -/
structure ActiveOk (d : Decoder) (j : Nat) (c : Component) : Prop where
  order : d.order[d.scanPos]? = some j
  comp : d.comps[j]? = some c
  index : c.index = j
  lt : j < d.nf
  unit : c.du < c.h * c.v
  factors : factorOk c.h ∧ factorOk c.v ∧ c.h ≤ d.hmax ∧ c.v ≤ d.vmax
  unique : ∀ q, d.order[q]? = some j → q = d.scanPos

theorem Decoder.InScan.activeOk {d : Decoder} (h : d.InScan) {j : Nat} {c : Component} (active : d.active = some (j, c)) : ActiveOk d j c := by
  obtain ⟨at_pos, at_j⟩ := active_eq_some.1 active
  obtain ⟨-, -, nodup, lt⟩ := h.base.order h.scanPresent
  obtain ⟨hpos, eq⟩ := List.getElem?_eq_some_iff.1 at_pos
  refine ⟨at_pos, at_j, h.base.frame.positions j c at_j, lt j (List.mem_of_getElem? at_pos), (h.units _ j c at_pos at_j).1 rfl,
    h.base.frame.factors c (List.mem_of_getElem? at_j), fun q hq => ?_⟩
  obtain ⟨hq, eq'⟩ := List.getElem?_eq_some_iff.1 hq
  exact (List.Nodup.getElem_inj_iff nodup).1 (eq'.trans eq.symm)

/-- Every cell of the data unit being completed holds a value. -/
def UnitWritten (d : Decoder) (c : Component) (pix : Memory) : Prop :=
  ∀ x y, x < d.width.toNat → y < d.height.toNat → mcuOfPixel d x y = d.mcu → unitOfPixel d c x y = c.du →
    (Memory.read pix (pixelOffset d (x, y) + c.index)).isSome = true

/-- Placement writes the cells of the data unit and no cell outside the image, and keeps the cells that hold a value. -/
theorem placement_inScan {d : Decoder} (h : d.InScan) {j : Nat} {c : Component} (active : ActiveOk d j c) {img : Image} {mode : RoundMode}
    {samples : Vector Byte 64} {pix : Memory} (present : d.img = some img)
    (placed : placePixels mode d c.index (convertsNow d) img.pix (unitPixels d c samples) = .ok pix) :
    Decoder.InScan { d with img := some { img with pix := pix } } ∧ UnitWritten d c pix := by
  have frame := h.framePresent
  obtain ⟨hmax, vmax⟩ := h.base.frame.maxima frame
  obtain ⟨mcux, -, -, -, -⟩ := h.base.frame.grid frame
  have pixels := fun {x y} => mem_unitPixels samples hmax vmax active.factors mcux active.unit (x := x) (y := y)
  have inside : ∀ w ∈ unitPixels d c samples, pixelOffset d w.1 + c.index < imageSize d := fun w hw => by
    obtain ⟨hx, hy, -, -⟩ := pixels.1 ⟨w.2, hw⟩
    exact pixelOffset_lt hx hy (active.index ▸ active.lt)
  have others : convertsNow d = true → ∀ w ∈ unitPixels d c samples, ∀ i < 3, i ≠ c.index →
      (Memory.read img.pix (pixelOffset d w.1 + i)).isSome = true := fun conv w hw i hi other => by
    obtain ⟨three, last⟩ : d.nf = 3 ∧ d.scanPos + 1 = d.ns := by simpa [convertsNow] using conv
    obtain ⟨hx, hy, mcu, -⟩ := pixels.1 ⟨w.2, hw⟩
    obtain ⟨q, ci, hq, at_q, at_i, index⟩ := h.comp_of_lt (i := i) (by omega)
    have earlier : q ≠ d.scanPos := by
      rintro rfl
      exact other ((Option.some.inj (at_q.symm.trans active.order)).trans active.index.symm)
    have cell := h.written img present q i ci at_q at_i w.1.1 w.1.2 hx hy (.inr ⟨mcu, .inl (by omega)⟩)
    rwa [index] at cell
  obtain ⟨pix', placed', cells, wf⟩ := placePixels_ok mode d c.index (convertsNow d) (unitPixels d c samples) img.pix inside others
  obtain rfl : pix' = pix := Except.ok.inj (placed'.symm.trans placed)
  obtain ⟨img', present', width, height, ncomp, canonical, extent⟩ := h.base.frame.image frame
  obtain rfl : img' = img := Option.some.inj (present'.symm.trans present)
  refine ⟨?_, fun x y hx hy mcu unit => ?_⟩
  · refine
      { h with
        base := ⟨{ h.base.input with }, { h.base.ranges with },
          { h.base.frame with image := fun _ => ⟨_, rfl, width, height, ncomp, wf canonical, fun o ho => ?_⟩ },
          h.base.order, h.base.complete, fun complete => absurd complete (by simp [h.incomplete])⟩
        completion := { h.completion with }
        written := fun img1 hi1 q i ci hq hi x y hx hy before => ?_ }
    · rcases (cells o).1 ho with old | ⟨w, hw, rfl⟩
      · exact extent o old
      · exact inside w hw
    · cases hi1
      exact (cells _).2 (.inl (h.written _ present q i ci hq hi x y hx hy before))
  · obtain ⟨b, hb⟩ := pixels.2 ⟨hx, hy, mcu, unit⟩
    exact (cells _).2 (.inr ⟨_, hb, rfl⟩)

/-! ### The cursors (43_mcu_color R149 to R153) -/

theorem div_lt_ceilDiv {a b x : Nat} (hx : x < a) (hb : 0 < b) : x / b < ceilDiv a b :=
  calc x / b + 1 = (x + b) / b := (Nat.add_div_right x hb).symm
    _ ≤ (a + b - 1) / b := Nat.div_le_div_right (by omega)

/-- Every pixel lies in one of the MCUs (43_mcu_color R144). -/
theorem Decoder.FrameOk.mcuOfPixel_lt {d : Decoder} (h : d.FrameOk) (present : d.framePresent = true) {x y : Nat} (hx : x < d.width.toNat)
    (hy : y < d.height.toNat) : mcuOfPixel d x y < d.mcuTotal := by
  obtain ⟨hmax, vmax⟩ := h.maxima present
  obtain ⟨mcux, mcuy, total, -, -⟩ := h.grid present
  have column : x / (8 * d.hmax) < d.mcux := mcux ▸ div_lt_ceilDiv hx (Nat.mul_pos (by decide) (factor_pos hmax))
  have row : y / (8 * d.vmax) < d.mcuy := mcuy ▸ div_lt_ceilDiv hy (Nat.mul_pos (by decide) (factor_pos vmax))
  unfold mcuOfPixel
  calc y / (8 * d.vmax) * d.mcux + x / (8 * d.hmax) < (y / (8 * d.vmax) + 1) * d.mcux := by
        rw [Nat.add_mul, Nat.one_mul]
        exact Nat.add_lt_add_left column _
    _ ≤ d.mcuy * d.mcux := Nat.mul_le_mul_right _ row
    _ = d.mcuTotal := by rw [total, Nat.mul_comm]

/-- What a lookup finds after the data-unit counter of the active component is written: every other component's counter is 0. -/
theorem setDu_lookup {d : Decoder} (h : d.InScan) {j : Nat} {c : Component} (active : ActiveOk d j c) {du q i : Nat} {c' : Component}
    (hq : d.order[q]? = some i) (hc' : (d.setComp j { c with du := du }).comps[i]? = some c') :
    q = d.scanPos ∧ i = j ∧ c' = { c with du := du } ∨ q ≠ d.scanPos ∧ d.comps[i]? = some c' ∧ c'.du = 0 := by
  rcases setComp_lookup active.comp hc' with ⟨rfl, rfl⟩ | ⟨other, hi⟩
  · exact .inl ⟨active.unique q hq, rfl, rfl⟩
  · have hne : q ≠ d.scanPos := by
      rintro rfl
      exact other (Option.some.inj (hq.symm.trans active.order))
    exact .inr ⟨hne, hi, (h.units q i c' hq hi).2 hne⟩

/-- The data unit that holds a pixel is the one being completed or comes before it. -/
def DecodedThrough (d : Decoder) (q : Nat) (c : Component) (x y : Nat) : Prop :=
  mcuOfPixel d x y < d.mcu ∨ mcuOfPixel d x y = d.mcu ∧ (q < d.scanPos ∨ q = d.scanPos ∧ unitOfPixel d c x y ≤ c.du)

/-- With the data unit placed, every cell up to and with it holds a value. -/
theorem written_through {d : Decoder} (h : d.InScan) {j : Nat} {c : Component} (active : ActiveOk d j c) {img : Image} (present : d.img = some img)
    (unit : UnitWritten d c img.pix) {q i : Nat} {c' : Component} (hq : d.order[q]? = some i) (hi : d.comps[i]? = some c') {x y : Nat}
    (hx : x < d.width.toNat) (hy : y < d.height.toNat) (through : DecodedThrough d q c' x y) :
    (Memory.read img.pix (pixelOffset d (x, y) + c'.index)).isSome = true := by
  have before := h.written img present q i c' hq hi x y hx hy
  rcases through with earlier | ⟨mcu, earlier | ⟨rfl, le⟩⟩
  · exact before (.inl earlier)
  · exact before (.inr ⟨mcu, .inl earlier⟩)
  · rcases Nat.lt_or_eq_of_le le with lt | eq
    · exact before (.inr ⟨mcu, .inr ⟨rfl, lt⟩⟩)
    · obtain rfl : i = j := Option.some.inj (hq.symm.trans active.order)
      obtain rfl : c' = c := Option.some.inj (hi.symm.trans active.comp)
      exact unit x y hx hy mcu eq

/-- With the last data unit of the active component placed, so is the whole MCU of the component and of those before it. -/
theorem written_component {d : Decoder} (h : d.InScan) {j : Nat} {c : Component} (active : ActiveOk d j c) {img : Image} (present : d.img = some img)
    (unit : UnitWritten d c img.pix) (last : c.du + 1 = c.h * c.v) {q i : Nat} {c' : Component} (hq : d.order[q]? = some i)
    (hi : d.comps[i]? = some c') {x y : Nat} (hx : x < d.width.toNat) (hy : y < d.height.toNat)
    (through : mcuOfPixel d x y < d.mcu ∨ mcuOfPixel d x y = d.mcu ∧ q ≤ d.scanPos) :
    (Memory.read img.pix (pixelOffset d (x, y) + c'.index)).isSome = true := by
  refine written_through h active present unit hq hi hx hy (through.imp_right fun ⟨mcu, le⟩ => ⟨mcu, ?_⟩)
  rcases Nat.lt_or_eq_of_le le with lt | rfl
  · exact .inl lt
  · obtain ⟨hmax, vmax⟩ := h.base.frame.maxima h.framePresent
    obtain rfl : i = j := Option.some.inj (hq.symm.trans active.order)
    obtain rfl : c' = c := Option.some.inj (hi.symm.trans active.comp)
    have := unitOfPixel_lt hmax vmax active.factors x y
    exact .inr ⟨rfl, by omega⟩

theorem Decoder.InScan.atUnit_base {d : Decoder} (h : d.InScan) {j : Nat} {c : Component} (at_j : d.comps[j]? = some c) (du scanPos mcu : Nat) :
    (d.atUnit j c du scanPos mcu).BaseOk := by
  have mem : c ∈ d.comps := List.mem_of_getElem? at_j
  have base := h.base.setComp at_j (du := du) (h.base.ranges.pred c mem) (h.base.ranges.scratch c mem)
  exact ⟨{ base.input with }, { base.ranges with k := Nat.zero_le _ }, { base.frame with }, base.order, base.complete, base.covered⟩

/-- The cursors moved inside the scan: it suffices that the counters and the written cells agree with them. -/
theorem Decoder.InScan.atUnit {d : Decoder} (h : d.InScan) {j : Nat} {c : Component} (at_j : d.comps[j]? = some c) {du scanPos mcu : Nat}
    (hpos : scanPos < d.ns) (hmcu : mcu < d.mcuTotal) (units : (d.atUnit j c du scanPos mcu).UnitsOk)
    (written : (d.atUnit j c du scanPos mcu).WrittenOk) : (d.atUnit j c du scanPos mcu).InScan :=
  { h with
    base := h.atUnit_base at_j du scanPos mcu
    completion := { h.completion with }
    tables := mem_setComp h.tables (h.tables c (List.mem_of_getElem? at_j))
    scanPos := hpos
    mcu := hmcu
    units := units
    written := written }

theorem factors_pos {d : Decoder} (h : d.FrameOk) {i : Nat} {c : Component} (hi : d.comps[i]? = some c) : 0 < c.h * c.v := by
  obtain ⟨ch, cv, -⟩ := h.factors c (List.mem_of_getElem? hi)
  exact Nat.mul_pos (factor_pos ch) (factor_pos cv)

/-- After the last data unit of the active component in an MCU every counter is 0. -/
theorem setDu_zero {d : Decoder} (h : d.InScan) {j : Nat} {c : Component} (active : ActiveOk d j c) {q i : Nat} {c' : Component}
    (hq : d.order[q]? = some i) (hc' : (d.setComp j { c with du := 0 }).comps[i]? = some c') : c'.du = 0 ∧ 0 < c'.h * c'.v := by
  rcases setDu_lookup h active hq hc' with ⟨-, -, rfl⟩ | ⟨-, hi, du⟩
  · exact ⟨rfl, (factors_pos h.base.frame active.comp : 0 < c.h * c.v)⟩
  · exact ⟨du, factors_pos h.base.frame hi⟩

/-- After the last data unit of the image every cell holds a value (43_mcu_color R152). -/
theorem scanEnd_covered {d : Decoder} (h : d.InScan) {j : Nat} {c : Component} (active : ActiveOk d j c) {img : Image} (present : d.img = some img)
    (unit : UnitWritten d c img.pix) (last : c.du + 1 = c.h * c.v) (lastComponent : d.scanPos + 1 = d.ns) (lastMcu : d.mcu + 1 = d.mcuTotal)
    {o : Nat} (ho : o < imageSize d) : (Memory.read img.pix o).isSome = true := by
  obtain ⟨x, y, i, hx, hy, hi, rfl⟩ := cell_split ho
  obtain ⟨q, ci, hq, at_q, at_i, index⟩ := h.comp_of_lt hi
  have mcu := h.base.frame.mcuOfPixel_lt h.framePresent hx hy
  have cell := written_component h active present unit last at_q at_i hx hy
    ((Nat.lt_or_eq_of_le (by omega : mcuOfPixel d x y ≤ d.mcu)).imp_right fun eq => ⟨eq, by omega⟩)
  rwa [index] at cell

/-- The next data unit of the same component. -/
theorem Decoder.InScan.nextUnit {d : Decoder} (h : d.InScan) {j : Nat} {c : Component} (active : ActiveOk d j c) {img : Image}
    (present : d.img = some img) (unit : UnitWritten d c img.pix) (more : c.du + 1 ≠ c.h * c.v) :
    (d.atUnit j c (c.du + 1) d.scanPos d.mcu).InScan := by
  refine h.atUnit active.comp h.scanPos h.mcu (fun q i c' hq hc' => ?_) fun img' hi q i c' hq hc' x y hx hy before => ?_
  · rcases setDu_lookup h active hq hc' with ⟨here, -, rfl⟩ | ⟨other, -, du⟩
    · exact ⟨fun _ => Nat.lt_of_le_of_ne active.unit more, fun other => absurd here other⟩
    · exact ⟨fun here => absurd here other, fun _ => du⟩
  · obtain rfl : img = img' := Option.some.inj (present.symm.trans hi)
    have through : DecodedThrough d q { c' with du := c'.du - 1 } x y := before.imp_right fun ⟨mcu, earlier⟩ =>
      ⟨mcu, earlier.imp_right fun ⟨here, lt⟩ => ⟨here, Nat.le_sub_one_of_lt lt⟩⟩
    rcases setDu_lookup h active hq hc' with ⟨-, rfl, rfl⟩ | ⟨-, hi, du⟩
    · exact written_through h active present unit hq active.comp hx hy through
    · exact written_through h active present unit hq hi hx hy (by simpa [DecodedThrough, unitOfPixel, du] using through)

/-- The next component of the MCU, or the first component of the next MCU. -/
theorem Decoder.InScan.nextComponent {d : Decoder} (h : d.InScan) {j : Nat} {c : Component} (active : ActiveOk d j c) {img : Image}
    (present : d.img = some img) (unit : UnitWritten d c img.pix) (last : c.du + 1 = c.h * c.v) {scanPos mcu : Nat} (hpos : scanPos < d.ns)
    (hmcu : mcu < d.mcuTotal) (next : scanPos = d.scanPos + 1 ∧ mcu = d.mcu ∨ d.scanPos + 1 = d.ns ∧ scanPos = 0 ∧ mcu = d.mcu + 1) :
    (d.atUnit j c 0 scanPos mcu).InScan := by
  refine h.atUnit active.comp hpos hmcu (fun q i c' hq hc' => ?_) fun img' hi q i c' hq hc' x y hx hy before => ?_
  · obtain ⟨du, pos⟩ := setDu_zero h active hq hc'
    exact ⟨fun _ => du ▸ pos, fun _ => du⟩
  · obtain rfl : img = img' := Option.some.inj (present.symm.trans hi)
    have through : mcuOfPixel d x y < d.mcu ∨ mcuOfPixel d x y = d.mcu ∧ q ≤ d.scanPos := by
      obtain ⟨du, -⟩ := setDu_zero h active hq hc'
      obtain ⟨length, -⟩ := h.base.order h.scanPresent
      have hlt : q < d.order.length := (List.getElem?_eq_some_iff.1 hq).1
      change mcuOfPixel d x y < mcu ∨ mcuOfPixel d x y = mcu ∧ (q < scanPos ∨ q = scanPos ∧ unitOfPixel d c' x y < c'.du) at before
      omega
    rcases setDu_lookup h active hq hc' with ⟨-, rfl, rfl⟩ | ⟨-, hi, -⟩
    · exact written_component h active present unit last hq active.comp hx hy through
    · exact written_component h active present unit last hq hi hx hy through

/-- The cursors after a data unit that is placed (43_mcu_color R149, R150) keep the invariant. -/
theorem advanceCursors_safe {s : State} {j : Nat} {c : Component} {img : Image} (h : s.dec.InScan) (active : ActiveOk s.dec j c)
    (sub : s.dec.sub = .magnitude) (present : s.dec.img = some img) (unit : UnitWritten s.dec c img.pix) :
    (s.withDec (advanceCursors s.dec j c)).Safe := by
  have scanPos := h.scanPos
  have mcu := h.mcu
  have settled : ∀ {du scanPos mcu}, (s.dec.atUnit j c du scanPos mcu).InScan → (s.withDec (s.dec.atUnit j c du scanPos mcu)).Safe :=
    fun inScan => Decoder.InScan.safe inScan (Nat.zero_le _) (.inl sub)
  rcases advanceCursors_cases s.dec j c with ⟨more, eq⟩ | ⟨last, ⟨more, eq⟩ | ⟨lastComponent, ⟨more, eq⟩ | ⟨lastMcu, eq⟩⟩⟩ <;>
    rw [eq]
  · exact settled (h.nextUnit active present unit more)
  · exact settled (h.nextComponent active present unit last (by omega) mcu (.inl ⟨rfl, rfl⟩))
  · exact settled (h.nextComponent active present unit last (by omega) (by omega) (.inr ⟨lastComponent, rfl, rfl⟩))
  · have base := h.atUnit_base active.comp 0 0 (s.dec.mcu + 1)
    refine safe_of_base ⟨{ base.input with }, { base.ranges with nbits := Nat.zero_le _ }, { base.frame with sofCode := nofun }, base.order,
      fun _ => h.scanPresent, fun _ img' hi o ho => ?_⟩ (h.completion.of_live (by rw [h.seg]; rfl) rfl rfl rfl rfl) nofun
    obtain rfl : img = img' := Option.some.inj (present.symm.trans hi)
    exact scanEnd_covered h active present unit last lastComponent lastMcu ho

/-- The completion of a data unit keeps the invariant. -/
theorem dataUnitComplete_safe {s : State} {j : Nat} {c : Component} (h : s.dec.InScan) (active : s.dec.active = some (j, c))
    (sub : s.dec.sub = .magnitude) : Ends State.Safe (dataUnitComplete s j c) := by
  refine ends_dataUnitComplete (errorEntry_safe h.base _) fun img samples pix present placed => ?_
  have activeOk := h.activeOk active
  obtain ⟨inScan, unit⟩ := placement_inScan h activeOk present placed
  exact advanceCursors_safe (s := s.withDec { s.dec with img := some { img with pix := pix } }) inScan { activeOk with } sub rfl unit

/-! ### Coefficients and symbols (42_entropy R128 to R139) -/

theorem setComp_active {d : Decoder} {j : Nat} {c c' : Component} (active : d.active = some (j, c)) (d' : Decoder) (order : d'.order = d.order)
    (scanPos : d'.scanPos = d.scanPos) (comps : d'.comps = (d.setComp j c').comps) : d'.active = some (j, c') := by
  obtain ⟨at_pos, at_j⟩ := active_eq_some.1 active
  exact active_eq_some.2 ⟨by rw [order, scanPos]; exact at_pos, by rw [comps]; exact setComp_at at_j⟩

theorem addCoef_safe {s : State} {j : Nat} {c : Component} (h : s.dec.InScan) (active : s.dec.active = some (j, c)) (sub : s.dec.sub = .magnitude)
    (run : Nat) (v : Int) : Ends State.Safe (addCoef s j c run v) := by
  have at_j := (active_eq_some.1 active).2
  have mem := List.mem_of_getElem? at_j
  have written : ∀ {scratch k}, (ScratchOk c.scratch → ScratchOk scratch) → k ≤ 64 →
      (s.dec.withScratch j { c with scratch := scratch } k).InScan := fun keeps hk =>
    h.setCoefficients at_j hk (h.base.ranges.pred c mem) (keeps (h.base.ranges.scratch c mem))
  refine ends_addCoef (errorEntry_safe h.base _) (fun _ keeps hk => errorEntry_safe (written keeps (by omega)).base _)
    (fun _ keeps hk => Decoder.InScan.safe (written keeps (by omega)) ?_ (.inl sub))
    fun _ keeps => dataUnitComplete_safe (written keeps (Nat.le_refl _)) (setComp_active active _ rfl rfl rfl) sub
  exact hk

theorem resolveAmplitude_safe {s : State} {j : Nat} {c : Component} (h : s.dec.InScan) (active : s.dec.active = some (j, c)) :
    Ends State.Safe (resolveAmplitude s j c) := by
  have at_j := (active_eq_some.1 active).2
  have mem := List.mem_of_getElem? at_j
  have dc : ∀ p, inI32 p = true → Decoder.InScan { s.dec.setComp j { c with pred := p } with sub := .magnitude } := fun p hp =>
    h.setCoefficients at_j h.base.ranges.k hp (h.base.ranges.scratch c mem)
  have ac : Decoder.InScan { s.dec with sub := .magnitude } := h.registers h.base.input.consumed h.hwidth { h.base.ranges with }
  exact ends_resolveAmplitude (errorEntry_safe h.base _)
    (fun p hp => addCoef_safe (s := s.withDec _) (dc p hp) (setComp_active active _ rfl rfl rfl) rfl _ _)
    fun v => addCoef_safe (s := s.withDec _) ac active rfl _ _

theorem eobStep_safe {s : State} {j : Nat} {c : Component} (h : s.dec.InScan) (active : s.dec.active = some (j, c)) :
    Ends State.Safe (eobStep s j c) := by
  have at_j := (active_eq_some.1 active).2
  have mem := List.mem_of_getElem? at_j
  exact ends_eobStep fun _ keeps => dataUnitComplete_safe
    (h.setCoefficients at_j (max_le h.base.ranges.k (Nat.le_refl _)) (h.base.ranges.pred c mem) (keeps (h.base.ranges.scratch c mem)))
    (setComp_active active _ rfl rfl rfl) rfl

theorem settle_safe {s : State} (h : s.dec.InScan) (k : s.dec.k ≤ 63) : Ends State.Safe (settle s) :=
  ends_settle (fun other => absurd h.seg other) (fun _ settled => h.safe k settled) (fun _ _ active _ _ => resolveAmplitude_safe h active)
    fun _ _ active _ => eobStep_safe h active

/-- A bit shifted into a register of `w` bits leaves it with `w + 1`. -/
theorem shiftIn_lt {x : U16} {w : Nat} (b : Bool) (h : x.toNat < 2 ^ w) : (x * 2 + (if b then 1 else 0)).toNat < 2 ^ (w + 1) := by
  have bit : (if b then 1 else 0 : U16).toNat ≤ 1 := by cases b <;> decide
  have mul : (x * 2).toNat ≤ x.toNat * 2 := Nat.mod_le _ _
  have add : (x * 2 + (if b then 1 else 0)).toNat ≤ (x * 2).toNat + (if b then 1 else 0 : U16).toNat := by
    rw [BitVec.toNat_add]
    exact Nat.mod_le _ _
  rw [Nat.pow_succ]
  omega

/-- A bit read changes the bit reader's registers only (42_entropy R125). -/
theorem readBit_registers {d d' : Decoder} {b : Bool} (input : d.InputOk) (ranges : d.RangesOk) (h : readBit d = .bit b d') :
    ∃ pos acc nbits, d' = { d with pos := pos, acc := acc, nbits := nbits } ∧ pos ≤ d.avail ∧ nbits ≤ 8 := by
  rcases readBit_bit h with ⟨_, _, rfl⟩ | ⟨_, _, _, _, ⟨_, hpos, rfl⟩ | ⟨_, hpos, _, rfl⟩⟩
  · exact ⟨_, _, _, rfl, input.consumed, (Nat.sub_le _ _).trans ranges.nbits⟩
  · exact ⟨_, _, _, rfl, hpos, by decide⟩
  · exact ⟨_, _, _, rfl, hpos, by decide⟩

theorem readBit_inScan {d d' : Decoder} {b : Bool} (h : d.InScan) (hr : readBit d = .bit b d') : d'.InScan := by
  obtain ⟨pos, acc, nbits, rfl, consumed, hn⟩ := readBit_registers h.base.input h.base.ranges hr
  exact h.registers consumed h.hwidth { h.base.ranges with nbits := hn }

theorem magnitudeBit_safe {s : State} {c : Component} {b : Bool} (h : s.dec.InScan) (k : s.dec.k ≤ 63) (sub : s.dec.sub = .magnitude) :
    Ends State.Safe (magnitudeBit s c b) := by
  have consumed := h.base.input.consumed
  have code : (appendCodeBit b s.dec).RangesOk :=
    { h.base.ranges with hwidth := Nat.succ_le_succ h.hwidth, hcode := shiftIn_lt b h.base.ranges.hcode }
  have coded : (appendCodeBit b s.dec).BaseOk := h.base.registers consumed code
  have clear : (clearCode s.dec).InScan :=
    h.registers consumed (Nat.zero_le _) { h.base.ranges with hwidth := Nat.zero_le _, hcode := noBits_lt }
  have goesOn : s.dec.hwidth + 1 ≠ 16 → (appendCodeBit b s.dec).InScan := fun more =>
    h.registers consumed (Nat.le_of_lt_succ (Nat.lt_of_le_of_ne (Nat.succ_le_succ h.hwidth) more)) code
  exact ends_magnitudeBit (fun more => Decoder.InScan.safe (s := s.withDec _) (goesOn more) k (.inl sub))
    (fun _ => errorEntry_safe (s := s.withDec _) coded _) (fun _ => errorEntry_safe (s := s.withDec _) clear.base _)
    (settle_safe (clear.registers consumed clear.hwidth { clear.base.ranges with }) k)
    fun run mag hrun hmag => settle_safe (clear.registers consumed clear.hwidth
      { clear.base.ranges with run := hrun, mag := hmag, ampn := Nat.zero_le _, amp := noBits_lt }) k

theorem amplitudeBit_inScan {d : Decoder} (h : d.InScan) (b : Bool) (more : d.ampn < d.mag) : (amplitudeBit b d).InScan :=
  h.registers h.base.input.consumed h.hwidth { h.base.ranges with ampn := more, amp := shiftIn_lt b h.base.ranges.amp }

theorem markerSeen_safe {s : State} {d : Decoder} (h : s.Safe) (seg : s.dec.seg = .scan) (hr : readBit s.dec = .markerSeen d) :
    (s.withDec d).Safe := by
  obtain ⟨-, -, -, -, rfl⟩ := readBit_markerSeen hr
  exact safe_of_base (h.base.move h.input.consumed nofun) (h.completion.of_live (by rw [seg]; rfl) rfl rfl rfl rfl) nofun

/-- A unit of work in `SCAN` keeps the invariant. -/
theorem scanUnit_safe {s : State} (h : s.Safe) (seg : s.dec.seg = .scan) : Ends State.Safe (scanUnit s) := by
  have inScan := h.inScan seg
  obtain ⟨-, -, -, k, -⟩ := h.scan.cursors seg
  refine ends_scanUnit (needMore_safe h) (fun _ => markerSeen_safe h seg) (fun _ c b d _ sub hr => ?_) (fun _ _ b d _ _ more hr => ?_)
    (fun _ _ active _ _ => resolveAmplitude_safe inScan active) fun _ _ active _ => eobStep_safe inScan active
  all_goals
    have after := readBit_inScan inScan hr
    obtain ⟨pos, acc, nbits, rfl, -⟩ := readBit_registers inScan.base.input inScan.base.ranges hr
  · exact magnitudeBit_safe after k sub
  · exact settle_safe (amplitudeBit_inScan after b more) k

/-! ### The step -/

theorem supply_inputOk {d : Decoder} (h : d.InputOk) (bytes : List Byte) (eos : Bool) : (d.supply bytes eos).InputOk where
  canonical := Memory.wf_writeBytes h.canonical _ _
  extent := fun a => by
    have old := h.extent a
    rw [Decoder.supply_input, Decoder.supply_avail, Memory.read_writeBytes]
    split
    · rename_i new
      rw [List.getElem?_eq_getElem (by omega)]
      simp only [Option.isSome_some, true_iff]
      exact new.2
    · rw [old]
      omega
  consumed := h.consumed.trans (Nat.le_add_right _ _)

theorem supply_safe {s : State} (h : s.Safe) (bytes : List Byte) (eos : Bool) : (s.withDec (s.dec.supply bytes eos)).Safe :=
  ⟨supply_inputOk h.input bytes eos, { h.ranges with }, { h.completion with }, { h.frame with }, { h.scan with }, { h.coverage with }⟩

theorem hostFeed_safe {s : State} (h : s.Safe) (bytes : List Byte) (eos : Bool) : (hostFeed bytes eos s).Safe := by
  unfold hostFeed
  split
  · exact h.of_dec_eq rfl
  · split
    · exact h.of_dec_eq rfl
    · exact (supply_safe h bytes eos).of_dec_eq rfl

theorem hostCancel_safe {s : State} (h : s.Safe) : (hostCancel s).Safe := by
  unfold hostCancel
  split
  · exact h
  · exact errorEntry_safe (s := s.withDec { s.dec with cancel := true })
      ⟨{ h.input with }, { h.ranges with }, { h.frame with }, h.scan.order, h.scan.complete, h.coverage.finished⟩ _

theorem hostConstruct_safe (s : State) : (hostConstruct s).Safe := resetIsSafe.of_dec_eq rfl

theorem hostEncode_dec (e : Encoder) (s : State) : (hostEncode e s).dec = s.dec := by
  unfold hostEncode
  split <;> rfl

/-- A host operation keeps the invariant (46_host_interface R185 to R193). -/
theorem hostStep_safe {s : State} (h : s.Safe) (op : HostOp) : Ends State.Safe (hostStep op s) := by
  cases op with
  | construct => exact (ends_next _ _).2 (hostConstruct_safe s)
  | feed bytes eos => exact (ends_next _ _).2 (hostFeed_safe h bytes eos)
  | cancel => exact (ends_next _ _).2 (hostCancel_safe h)
  | getImage => exact (ends_next _ _).2 (h.of_dec_eq rfl)
  | getError => exact (ends_next _ _).2 (h.of_dec_eq rfl)
  | getComment => exact (ends_next _ _).2 (h.of_dec_eq rfl)
  | consumed => exact (ends_next _ _).2 (h.of_dec_eq rfl)
  | decodeSync bytes => exact (ends_next _ _).2 (hostFeed_safe (hostConstruct_safe s) bytes true)
  | constructEncoder img => exact (ends_next _ _).2 (h.of_dec_eq rfl)
  | encode =>
    unfold hostStep
    dsimp only
    split
    · exact (ends_next _ _).2 (h.of_dec_eq (hostEncode_dec _ s))
    · exact ends_refused _ _

/-- Settles O52: a host operation, a return to the host, an instruction outside the scan, or a unit of work of the scan. -/
theorem stepKeepsSafety : Obligations.StepKeepsSafety := by
  intro s t h
  by_cases running : s.host.running = true
  · exact ends_step_running running (fun _ => feedReturn_safe h) (fun _ => errorEntry_safe h.base _)
      (fun live _ => ends_unitOfWork live (fun _ => needMore_safe h) (fun _ => errorEntry_safe h.base _) (fun _ => exec_safe h) (scanUnit_safe h)) t
  · unfold step
    rw [if_neg running]
    split
    · exact (ends_next _ _).2 h t
    · rename_i op ops _
      exact hostStep_safe (s := takeOp ops s) (h.of_dec_eq rfl) op t

end Sys2Proof.Machine
end

section
/-! SUPPORT. From a state that meets the invariant no step answers a model fault (20_memory R62, 43_mcu_color R153): every read finds its byte,
every placed pixel lies in the image, and the colour converter finds its three cells written. -/

namespace Sys2Proof.Machine

/-- An outcome that is not a model fault. -/
def NoFault (o : Host.Outcome State Fault Refusal) : Prop := ∀ f, o ≠ .fault f

@[simp] theorem noFault_next (t : State) : NoFault (.next t) := nofun

@[simp] theorem noFault_raise (e : Err) (s : State) : NoFault (raise e s) := nofun

@[simp] theorem noFault_needMore (s : State) : NoFault (needMore s) := by
  unfold needMore
  split <;> simp

theorem noFault_andThen {o : Host.Outcome State Fault Refusal} {f : State → Host.Outcome State Fault Refusal} (ho : NoFault o)
    (hf : Ends (fun t => NoFault (f t)) o) : NoFault (andThen o f) := by
  cases o with
  | next t => exact hf t rfl
  | fault r => exact absurd rfl (ho r)
  | refused r => exact nofun

/-! ### Instructions -/

theorem noFault_withSegment {s : State} (input : s.dec.InputOk) {body : Nat → List Byte → Host.Outcome State Fault Refusal}
    (ok : ∀ len p, NoFault (body len p)) : NoFault (withSegment s body) := by
  unfold withSegment
  split
  · exact ok _ _
  · exact noFault_needMore s
  · exact noFault_raise _ s
  · rename_i hole
    exact absurd hole (segFetch_noHole input _)

theorem noFault_inHandler {g : Seg} {s : State} {handler marker : Host.Outcome State Fault Refusal} (hh : NoFault handler)
    (hm : NoFault marker) : NoFault (inHandler g s handler marker) := by
  unfold inHandler
  split
  · exact hh
  · exact hm

theorem noFault_dqtBody (s : State) (len : Nat) (p : List Byte) : NoFault (dqtBody s len p) := by
  unfold dqtBody
  split
  · exact noFault_raise _ s
  · dsimp only
    split <;> simp

theorem noFault_dhtBody (s : State) (len : Nat) (p : List Byte) : NoFault (dhtBody s len p) := by
  unfold dhtBody
  split
  · exact noFault_raise _ s
  · dsimp only
    split <;> simp

theorem noFault_sofBody (mode : Mode) (s : State) (len : Nat) (p : List Byte) : NoFault (sofBody mode s len p) := by
  unfold sofBody
  split <;> simp

theorem noFault_sosBody (s : State) (len : Nat) (p : List Byte) : NoFault (sosBody s len p) := by
  unfold sosBody
  split <;> simp

theorem noFault_app0Body (s : State) (len : Nat) (p : List Byte) : NoFault (app0Body s len p) := by
  unfold app0Body
  split
  · split <;> simp
  · simp

/-- A marker with a handler reads its own segment only (40_segments R92). -/
theorem noFault_exec_handler {s : State} (input : s.dec.InputOk) {i : Instr} {g : Seg} (h : handlerOf i = some g) : NoFault (exec i s) := by
  have run : ∀ {g : Seg} {body : Nat → List Byte → Host.Outcome State Fault Refusal} {marker : State}, (∀ len p, NoFault (body len p)) →
      NoFault (inHandler g s (withSegment s body) (.next marker)) :=
    fun ok => noFault_inHandler (noFault_withSegment input ok) (noFault_next _)
  unfold handlerOf at h
  split at h
  · exact run (noFault_sofBody .baseline s)
  · exact run (noFault_sofBody .extended s)
  · exact run (noFault_sofBody .progressive s)
  · exact run (noFault_sofBody .lossless s)
  · exact run (noFault_dhtBody s)
  · exact run (noFault_sosBody s)
  · exact run (noFault_dqtBody s)
  · exact run (noFault_app0Body s)
  · exact run fun _ _ => noFault_next _
  · exact run fun _ _ => noFault_raise _ s
  · exact run fun _ _ => noFault_raise _ s
  · exact run fun _ _ => noFault_raise _ s
  · exact run fun _ _ => noFault_raise _ s
  · cases h

/-- A complete scan had a frame, and the frame its image (10_state R40). -/
theorem Decoder.BaseOk.image_of_complete {d : Decoder} (h : d.BaseOk) (complete : d.scanComplete = true) : d.img.isSome = true := by
  have frame : d.framePresent = true := by
    by_contra absent
    obtain ⟨-, noScan⟩ := h.frame.absent (Bool.eq_false_iff.2 absent)
    exact Bool.false_ne_true (noScan.symm.trans (h.complete complete))
  obtain ⟨img, present, -⟩ := h.frame.image frame
  exact Option.isSome_iff_exists.2 ⟨img, present⟩

theorem noFault_eoi {s : State} (base : s.dec.BaseOk) : NoFault (execEoi s) := by
  unfold execEoi eoiBody
  split
  · rename_i complete
    obtain ⟨img, present⟩ := Option.isSome_iff_exists.1 (base.image_of_complete complete)
    rw [State.consume_dec_img, present]
    exact noFault_next _
  · exact noFault_raise _ _

theorem noFault_exec {s : State} (base : s.dec.BaseOk) (i : Instr) : NoFault (exec i s) := by
  cases handler : handlerOf i with
  | some g => exact noFault_exec_handler base.input handler
  | none =>
    by_cases marker : i.kind = .marker
    · rcases exec_of_dispatchedMarker marker handler with rfl | rfl | ⟨e, he⟩
      · exact noFault_next _
      · exact noFault_eoi base
      · exact he s ▸ noFault_raise e _
    · rcases exec_of_symbol marker with ⟨e, he⟩ | rfl | ⟨run, mag, -, -, he⟩
      · exact he s ▸ noFault_raise e s
      · exact noFault_next _
      · exact he s ▸ noFault_next _

/-! ### Placement (43_mcu_color R143 to R148) -/

/-- Every pixel of the data unit being completed lies in the image (43_mcu_color R146). -/
theorem Decoder.InScan.unitPixels_inside {d : Decoder} (h : d.InScan) {j : Nat} {c : Component} (active : ActiveOk d j c)
    (samples : Vector Byte 64) {w : (Nat × Nat) × Byte} (hw : w ∈ unitPixels d c samples) :
    w.1.1 < d.width.toNat ∧ w.1.2 < d.height.toNat ∧ mcuOfPixel d w.1.1 w.1.2 = d.mcu := by
  obtain ⟨hmax, vmax⟩ := h.base.frame.maxima h.framePresent
  obtain ⟨mcux, -⟩ := h.base.frame.grid h.framePresent
  obtain ⟨hx, hy, mcu, -⟩ := (mem_unitPixels samples hmax vmax active.factors mcux active.unit).1 ⟨w.2, hw⟩
  exact ⟨hx, hy, mcu⟩

/-- The cell that placement writes lies in IMG. -/
theorem Decoder.InScan.cell_inside {d : Decoder} (h : d.InScan) {j : Nat} {c : Component} (active : ActiveOk d j c) (samples : Vector Byte 64)
    {w : (Nat × Nat) × Byte} (hw : w ∈ unitPixels d c samples) : pixelOffset d w.1 + c.index < imageSize d := by
  obtain ⟨hx, hy, -⟩ := h.unitPixels_inside active samples hw
  exact pixelOffset_lt hx hy (active.index ▸ active.lt)

/-- When conversion runs, the other two cells of the pixel were written by the earlier components of the MCU (43_mcu_color R147, R153). -/
theorem Decoder.InScan.other_cells_written {d : Decoder} (h : d.InScan) {j : Nat} {c : Component} (active : ActiveOk d j c) {img : Image}
    (present : d.img = some img) (samples : Vector Byte 64) (conv : convertsNow d = true) {w : (Nat × Nat) × Byte}
    (hw : w ∈ unitPixels d c samples) {i : Nat} (hi : i < 3) (other : i ≠ c.index) :
    (Memory.read img.pix (pixelOffset d w.1 + i)).isSome = true := by
  obtain ⟨three, last⟩ : d.nf = 3 ∧ d.scanPos + 1 = d.ns := by simpa [convertsNow] using conv
  obtain ⟨hx, hy, mcu⟩ := h.unitPixels_inside active samples hw
  obtain ⟨q, ci, hq, at_q, at_i, index⟩ := h.comp_of_lt (i := i) (by omega)
  have notActive : q ≠ d.scanPos := by
    rintro rfl
    exact other ((Option.some.inj (at_q.symm.trans active.order)).trans active.index.symm)
  have cell := h.written img present q i ci at_q at_i w.1.1 w.1.2 hx hy (.inr ⟨mcu, .inl (by omega)⟩)
  rwa [index] at cell

theorem noFault_dataUnitComplete {s : State} {j : Nat} {c : Component} (h : s.dec.InScan) (active : s.dec.active = some (j, c)) :
    NoFault (dataUnitComplete s j c) := by
  have activeOk := h.activeOk active
  obtain ⟨img, present, -⟩ := h.base.frame.image h.framePresent
  unfold dataUnitComplete
  split
  · exact noFault_raise _ s
  · rename_i samples _
    obtain ⟨pix, placed, -⟩ := placePixels_ok s.cfg.ccRound s.dec c.index (convertsNow s.dec) (unitPixels s.dec c samples) img.pix
      (fun _ hw => h.cell_inside activeOk samples hw) fun conv _ hw _ hi other => h.other_cells_written activeOk present samples conv hw hi other
    simp only [present, placed, noFault_next]

/-! ### Coefficients, symbols and bits (42_entropy R127 to R139) -/

theorem noFault_addCoef {s : State} {j : Nat} {c : Component} (h : s.dec.InScan) (active : s.dec.active = some (j, c)) (run : Nat) (v : Int) :
    NoFault (addCoef s j c run v) := by
  have at_j := (active_eq_some.1 active).2
  have mem := List.mem_of_getElem? at_j
  unfold addCoef
  split
  · exact noFault_raise _ s
  · dsimp only
    split
    · rename_i inRange
      split
      · rename_i full
        have zeros : ScratchOk (zeroFill c.scratch s.dec.k run) := zeroFill_i32 _ (h.base.ranges.scratch c mem) run s.dec.k
        have scratch := zeros.set inRange (zigzagPos (s.dec.k + run))
        exact noFault_dataUnitComplete (s := s.withDec _) (h.setCoefficients at_j (by omega) (h.base.ranges.pred c mem) scratch)
          (setComp_active active _ rfl rfl rfl)
      · exact noFault_next _
    · exact noFault_raise _ _

theorem noFault_resolveAmplitude {s : State} {j : Nat} {c : Component} (h : s.dec.InScan) (active : s.dec.active = some (j, c)) :
    NoFault (resolveAmplitude s j c) := by
  have at_j := (active_eq_some.1 active).2
  have mem := List.mem_of_getElem? at_j
  have ac : Decoder.InScan { s.dec with sub := .magnitude } := h.registers h.base.input.consumed h.hwidth { h.base.ranges with }
  unfold resolveAmplitude
  dsimp only
  split
  · split
    · rename_i inRange
      have dc : Decoder.InScan
          { s.dec.setComp j { c with pred := c.pred + amplitudeValue s.dec.mag s.dec.amp.toNat } with sub := .magnitude } :=
        h.setCoefficients at_j h.base.ranges.k inRange (h.base.ranges.scratch c mem)
      exact noFault_addCoef (s := s.withDec _) dc (setComp_active active _ rfl rfl rfl) _ _
    · exact noFault_raise _ s
  · exact noFault_addCoef (s := s.withDec _) ac active _ _

theorem noFault_eobStep {s : State} {j : Nat} {c : Component} (h : s.dec.InScan) (active : s.dec.active = some (j, c)) :
    NoFault (eobStep s j c) := by
  have at_j := (active_eq_some.1 active).2
  have mem := List.mem_of_getElem? at_j
  exact noFault_dataUnitComplete (s := s.withDec _)
    (h.setCoefficients at_j (max_le h.base.ranges.k (Nat.le_refl _)) (h.base.ranges.pred c mem)
      (zeroFill_i32 _ (h.base.ranges.scratch c mem) _ _))
    (setComp_active active _ rfl rfl rfl)

/-- Inside the scan the scan position names a component (10_state R37, R38). -/
theorem Decoder.InScan.active_isSome {d : Decoder} (h : d.InScan) : ∃ j c, d.active = some (j, c) := by
  obtain ⟨length, -, -, lt⟩ := h.base.order h.scanPresent
  obtain ⟨count, -⟩ := h.base.frame.count h.framePresent
  have inOrder : d.scanPos < d.order.length := length ▸ h.scanPos
  have inComps : d.order[d.scanPos] < d.comps.length := count ▸ lt _ (List.getElem_mem inOrder)
  exact ⟨_, _, active_eq_some.2 ⟨List.getElem?_eq_getElem inOrder, List.getElem?_eq_getElem inComps⟩⟩

theorem noFault_settle {s : State} (h : s.dec.InScan) : NoFault (settle s) := by
  obtain ⟨j, c, active⟩ := h.active_isSome
  unfold settle
  rw [if_pos h.seg, active]
  dsimp only
  split
  · exact noFault_next s
  · split
    · exact noFault_next s
    · exact noFault_resolveAmplitude h active
  · exact noFault_eobStep h active

/-- A symbol's instruction, and what it completes. -/
theorem noFault_symbol {s : State} (h : s.dec.InScan) (k : Nat) (v : Byte) : NoFault (andThen (exec (decodeSymbol k v) s) settle) := by
  refine noFault_andThen (noFault_exec h.base _) ?_
  rcases exec_symbol k v s with ⟨e, he⟩ | he | ⟨run, mag, hrun, hmag, he⟩
  · rw [he, ends_raise, settle_of_not_scan (by simp [errorEntry_eq])]
    exact noFault_next _
  · rw [he, ends_next]
    exact noFault_settle (s := s.withDec _) (h.registers h.base.input.consumed h.hwidth { h.base.ranges with })
  · rw [he, ends_next]
    exact noFault_settle (s := s.withDec _) (h.registers h.base.input.consumed h.hwidth
      { h.base.ranges with run := hrun, mag := hmag, ampn := Nat.zero_le _, amp := noBits_lt })

theorem noFault_magnitudeBit {s : State} (h : s.dec.InScan) (c : Component) (b : Bool) : NoFault (magnitudeBit s c b) := by
  have clear : (clearCode s.dec).InScan :=
    h.registers h.base.input.consumed (Nat.zero_le _) { h.base.ranges with hwidth := Nat.zero_le _, hcode := noBits_lt }
  unfold magnitudeBit
  dsimp only
  split
  · exact noFault_next _
  · exact noFault_raise _ _
  · exact noFault_symbol (s := s.withDec (clearCode s.dec)) clear _ _

theorem noFault_withBit {s : State} (input : s.dec.InputOk) {body : Bool → State → Host.Outcome State Fault Refusal}
    (bit : ∀ b d, readBit s.dec = .bit b d → NoFault (body b (s.withDec d))) : NoFault (withBit s body) := by
  unfold withBit
  split
  · exact bit _ _ (by assumption)
  · exact noFault_next _
  · exact noFault_needMore s
  · rename_i hole
    exact absurd hole (readBit_noHole input _)

theorem noFault_scanUnit {s : State} (h : s.dec.InScan) : NoFault (scanUnit s) := by
  obtain ⟨j, c, active⟩ := h.active_isSome
  have input := h.base.input
  unfold scanUnit
  rw [active]
  dsimp only
  split
  · exact noFault_withBit input fun b d hr => noFault_magnitudeBit (s := s.withDec d) (readBit_inScan h hr) c b
  · split
    · rename_i more
      refine noFault_withBit input fun b d hr => ?_
      have after := readBit_inScan h hr
      obtain ⟨pos, acc, nbits, rfl, -⟩ := readBit_registers h.base.input h.base.ranges hr
      exact noFault_settle (s := s.withDec _) (amplitudeBit_inScan after b more)
    · exact noFault_resolveAmplitude h active
  · exact noFault_eobStep h active

/-! ### The step -/

theorem noFault_markerUnit {s : State} (base : s.dec.BaseOk) : NoFault (markerUnit s) := by
  unfold markerUnit
  split
  · exact noFault_needMore s
  · obtain ⟨b0, h0⟩ := Option.isSome_iff_exists.1 ((base.input.extent s.dec.pos).2 (by omega))
    obtain ⟨b1, h1⟩ := Option.isSome_iff_exists.1 ((base.input.extent (s.dec.pos + 1)).2 (by omega))
    rw [h0, h1]
    dsimp only
    split
    · exact noFault_exec base _
    · exact noFault_raise _ s

theorem noFault_unitOfWork {s : State} (h : s.Safe) : NoFault (unitOfWork s) := by
  have handler := noFault_exec h.base
  cases seg : s.dec.seg with
  | marker => exact unitOfWork_marker seg ▸ noFault_markerUnit h.base
  | sof =>
    obtain ⟨i, hi⟩ := Option.isSome_iff_exists.1 (h.frame.sofCode seg)
    simpa only [unitOfWork, seg, hi] using handler i
  | scan => exact unitOfWork_scan seg ▸ noFault_scanUnit (h.inScan seg)
  | dqt => simpa only [unitOfWork, seg] using handler .dqt
  | dnl => simpa only [unitOfWork, seg] using handler .dnl
  | dri => simpa only [unitOfWork, seg] using handler .dri
  | exp => simpa only [unitOfWork, seg] using handler .exp
  | dht => simpa only [unitOfWork, seg] using handler .dht
  | dac => simpa only [unitOfWork, seg] using handler .dac
  | sos => simpa only [unitOfWork, seg] using handler .sos
  | app0 => simpa only [unitOfWork, seg] using handler .app0
  | com => simpa only [unitOfWork, seg] using handler .com
  | done => simp only [unitOfWork, seg, noFault_next]
  | error => simp only [unitOfWork, seg, noFault_next]

theorem noFault_hostStep (op : HostOp) (s : State) : NoFault (hostStep op s) := by
  cases op with
  | encode =>
    unfold hostStep
    dsimp only
    split <;> exact nofun
  | _ => exact noFault_next _

/-- Settles O53: the driver's own turns and the host's operations never fault, and a unit of work finds what the invariant says is there. -/
theorem safeStatesNeverFault : Obligations.SafeStatesNeverFault := by
  intro s f h
  suffices NoFault (step s) from this f
  unfold step
  split
  · unfold runTurn
    split
    · exact noFault_next _
    · split
      · exact noFault_raise _ s
      · exact noFault_unitOfWork h
  · split
    · exact noFault_next s
    · exact noFault_hostStep _ _

end Sys2Proof.Machine
end

section
/-! SUPPORT. The bits of a byte in stream order (20_memory R57): the bit reader takes them most significant first (42_entropy R125), the bit
writer puts them so, stuffed, with none lost (45_encoder R180 to R182). -/

namespace Sys2Proof.Machine

/-! ### The bit reader -/

theorem readBit_pending {d : Decoder} (h : d.nbits ≠ 0) : readBit d = takeBit d := if_pos h

/-- The bits of a full enough accumulator, from its top unused bit down. -/
theorem readBits_pending {n : Nat} {d : Decoder} (h : n ≤ d.nbits) :
    readBits n d = some ((List.range n).map fun i => d.acc.getLsbD (d.nbits - 1 - i), { d with nbits := d.nbits - n }) := by
  induction n generalizing d with
  | zero => rfl
  | succ n ih =>
    have rest := ih (d := { d with nbits := d.nbits - 1 }) (Nat.le_sub_one_of_lt h)
    dsimp only at rest
    simp only [readBits, readBit_pending (by omega : d.nbits ≠ 0), takeBit, rest]
    rw [List.range_succ_eq_map, List.map_cons, List.map_map]
    simp only [Function.comp_def, Nat.sub_sub, Nat.add_comm, Nat.add_left_comm, Nat.zero_add, Nat.succ_eq_add_one]

theorem readBit_data {d : Decoder} {v : Byte} (empty : d.nbits = 0) (data : Memory.read d.input d.pos = some v) (plain : v ≠ 0xFF)
    (supplied : d.pos + 1 ≤ d.avail) : readBit d = takeBit (loadByte v 1 d) := by
  unfold readBit
  rw [if_neg (by omega), if_neg (by omega), data]
  exact if_neg plain

theorem readBit_stuffed {d : Decoder} (empty : d.nbits = 0) (data : Memory.read d.input d.pos = some 0xFF)
    (zero : Memory.read d.input (d.pos + 1) = some 0x00) (supplied : d.pos + 2 ≤ d.avail) : readBit d = takeBit (loadByte 0xFF 2 d) := by
  unfold readBit
  rw [if_neg (by omega), if_neg (by omega), data]
  dsimp only
  rw [if_pos rfl, if_neg (by omega), zero]
  exact if_pos rfl

theorem take_bitsOf {n : Nat} (v : Byte) (h : n ≤ 8) : (bitsOf v).take n = (List.range n).map fun i => v.getLsbD (7 - i) := by
  rw [bitsOf, ← List.map_take, List.take_range, Nat.min_eq_left h]

/-- Settles O27: the first bit loads the byte, and the accumulator then holds all eight. -/
theorem bitsComeMostSignificantFirst : Obligations.BitsComeMostSignificantFirst := by
  intro d v n len empty positive le data supplied form
  have load : readBit d = readBit (loadByte v len d) := by
    rw [readBit_pending (d := loadByte v len d) (by simp [loadByte])]
    rcases form with ⟨plain, rfl⟩ | ⟨rfl, rfl, zero⟩
    · exact readBit_data empty data plain supplied
    · exact readBit_stuffed empty data zero supplied
  obtain ⟨m, rfl⟩ := Nat.exists_eq_add_of_le' positive
  have loaded := readBits_pending (d := loadByte v len d) le
  rw [readBits, ← load] at loaded
  rw [readBits, loaded, take_bitsOf v le]
  rfl

/-! ### The bit writer -/

theorem bitsOf_length (b : Byte) : (bitsOf b).length = 8 := by simp [bitsOf]

/-- Eight bits as a byte, and its bits again (R181). -/
theorem bitsOf_byteOfBits {bits : List Bool} (h : bits.length = 8) : bitsOf (byteOfBits bits) = bits := by
  have all : ∀ a b c d e f g i : Bool, bitsOf (byteOfBits [a, b, c, d, e, f, g, i]) = [a, b, c, d, e, f, g, i] := by decide
  match bits, h with
  | [a, b, c, d, e, f, g, i], _ => exact all a b c d e f g i

theorem unstuff_flatMap_stuffed (data : List Byte) : unstuff (data.flatMap stuffed) = data := by
  induction data with
  | nil => rfl
  | cons b data ih => rw [List.flatMap_cons, unstuff_stuffed, ih]

theorem noMarker_append {xs ys : List Byte} (hx : noMarker xs) (hy : noMarker ys) : noMarker (xs ++ ys) := by
  intro i hi
  by_cases inside : i < xs.length
  · have next := hx i (by rwa [List.getElem?_append_left inside] at hi)
    rw [List.getElem?_append_left (List.getElem?_eq_some_iff.1 next).1, next]
  · rw [List.getElem?_append_right (by omega)] at hi ⊢
    rw [show i + 1 - xs.length = i - xs.length + 1 by omega]
    exact hy _ hi

theorem noMarker_stuffed (b : Byte) : noMarker (stuffed b) := by
  intro i hi
  unfold stuffed at hi ⊢
  split at hi <;> rename_i h
  · match i with
    | 0 => rw [if_pos h]; rfl
    | 1 => cases hi
    | _ + 2 => cases hi
  · match i with
    | 0 => exact absurd (Option.some.inj hi) h
    | _ + 1 => cases hi

theorem noMarker_flatMap_stuffed (data : List Byte) : noMarker (data.flatMap stuffed) := by
  induction data with
  | nil => exact nofun
  | cons b data ih => exact noMarker_append (noMarker_stuffed b) ih

/-- One bit put (R180): it is pending, or with seven pending before it completes a byte. -/
theorem putBit_cases (e : Encoder) (b : Bool) :
    e.wacc.length + 1 ≠ 8 ∧ e.putBit b = { e with wacc := e.wacc ++ [b] }
    ∨ e.wacc.length + 1 = 8 ∧ e.putBit b = { e with out := e.out ++ stuffed (byteOfBits (e.wacc ++ [b])), wacc := [] } := by
  have length : (e.wacc ++ [b]).length = e.wacc.length + 1 := by simp
  unfold Encoder.putBit Encoder.wn
  dsimp only
  rw [length]
  by_cases full : e.wacc.length + 1 = 8
  · exact .inr ⟨full, by rw [if_pos full]; rfl⟩
  · exact .inl ⟨full, if_neg full⟩

/-- The bits put come out as whole data bytes, stuffed, and the rest stays pending (R180, R181). -/
theorem putBits_eq {e : Encoder} (short : e.wacc.length < 8) (value w : Nat) : ∃ (data : List Byte) (wacc : List Bool),
    e.putBits value w = { e with out := e.out ++ data.flatMap stuffed, wacc := wacc } ∧ wacc.length < 8
    ∧ data.flatMap bitsOf ++ wacc = e.wacc ++ bitsOfValue value w := by
  induction w generalizing e with
  | zero => exact ⟨[], e.wacc, by simp [Encoder.putBits], short, by simp [bitsOfValue]⟩
  | succ w ih =>
    rw [Encoder.putBits, bitsOfValue_succ]
    rcases putBit_cases e (value.testBit w) with ⟨more, put⟩ | ⟨full, put⟩ <;> rw [put]
    · have pending : (e.wacc ++ [value.testBit w]).length < 8 := by simp; omega
      obtain ⟨data, wacc, eq, lt, bits⟩ := ih (e := { e with wacc := e.wacc ++ [value.testBit w] }) pending
      exact ⟨data, wacc, eq, lt, by simpa using bits⟩
    · obtain ⟨data, wacc, eq, lt, bits⟩ :=
        ih (e := { e with out := e.out ++ stuffed (byteOfBits (e.wacc ++ [value.testBit w])), wacc := [] }) (by simp)
      refine ⟨byteOfBits (e.wacc ++ [value.testBit w]) :: data, wacc, by simpa using eq, lt, ?_⟩
      have byte := bitsOf_byteOfBits (bits := e.wacc ++ [value.testBit w]) (by simpa using full)
      simpa [byte] using bits

theorem bitsOfValue_ones (w : Nat) : bitsOfValue (2 ^ w - 1) w = List.replicate w true := by
  refine List.ext_getElem (by simp [bitsOfValue]) fun i hi _ => ?_
  have lt : i < w := by simpa [bitsOfValue] using hi
  simp [bitsOfValue, Nat.testBit_two_pow_sub_one]
  omega

/-- Padding to eight bits leaves one byte and nothing pending. -/
theorem flushed_byte {data : List Byte} {wacc pending : List Bool} (lt : wacc.length < 8) (bits : data.flatMap bitsOf ++ wacc = pending)
    (whole : pending.length = 8) : wacc = [] ∧ ∃ b, data = [b] ∧ bitsOf b = pending := by
  have count : 8 * data.length + wacc.length = 8 := by
    have length := congrArg List.length bits
    rw [List.length_append, List.length_flatMap, whole] at length
    simpa [bitsOf_length, Nat.mul_comm] using length
  obtain rfl : wacc = [] := List.length_eq_zero_iff.1 (by omega)
  obtain ⟨b, rfl⟩ := List.length_eq_one_iff.1 (show data.length = 1 by simp at count; omega)
  exact ⟨rfl, b, rfl, by simpa using bits⟩

/-- Settles O60: the appended bytes are the stuffed data bytes of `putBits_eq`; a flush puts the 1-bits that complete a byte. -/
theorem bitWriterKeepsEveryBit : Obligations.BitWriterKeepsEveryBit := by
  intro e short
  refine ⟨fun value w => ?_, fun empty => ?_, fun pending => ?_⟩
  · obtain ⟨data, wacc, eq, lt, bits⟩ := putBits_eq short value w
    exact ⟨_, wacc, eq, noMarker_flatMap_stuffed data, lt, by rw [unstuff_flatMap_stuffed, bits]⟩
  · simp [Encoder.flushBits, Encoder.wn, empty]
  · have positive : e.wn ≠ 0 := fun h => pending (List.length_eq_zero_iff.1 h)
    obtain ⟨data, wacc, eq, lt, bits⟩ := putBits_eq short (2 ^ (8 - e.wn) - 1) (8 - e.wn)
    rw [bitsOfValue_ones] at bits
    obtain ⟨rfl, b, rfl, hb⟩ := flushed_byte lt bits (by simp [Encoder.wn]; omega)
    refine ⟨b, hb, ?_⟩
    rw [Encoder.flushBits, if_neg positive, eq, List.flatMap_singleton]
    rfl

end Sys2Proof.Machine
end

section
/-! SUPPORT. What a Feed supplies (46_host_interface R186), and the canonical form of the byte spaces IN and IMG kept by every step from every
state (20_memory R54). -/

namespace Sys2Proof.Machine

theorem step_of_pending {s : State} {op : HostOp} {ops : List HostOp} (idle : s.host.running = false) (pending : s.host.pending = op :: ops) :
    step s = hostStep op (takeOp ops s) := by
  simp [step, idle, pending]

theorem hostFeed_accepted {s : State} {bytes : List Byte} (eos : Bool) (live : s.dec.seg.final = false)
    (more : s.dec.eos = false ∨ bytes = []) :
    hostFeed bytes eos s = { s with dec := s.dec.supply bytes eos, host := { s.host with running := true } } := by
  unfold hostFeed
  rw [if_neg (by simp [live]), if_neg (by rcases more with h | h <;> simp [h])]
  rfl

theorem hostFeed_refused {s : State} {bytes : List Byte} (eos : Bool) (h : s.dec.seg.final = true ∨ s.dec.eos = true ∧ bytes ≠ []) :
    hostFeed bytes eos s = reply (.feed (feedResult s.dec)) s := by
  unfold hostFeed
  rcases h with final | ⟨ended, nonempty⟩
  · rw [if_pos final]
  · rw [if_pos (by simp [ended, nonempty] : (s.dec.eos && !bytes.isEmpty) = true), ite_self]

/-- Settles O44: the two ways a Feed can go, and what a read finds after consecutive bytes are written. -/
theorem feedAppendsBytes : Obligations.FeedAppendsBytes := by
  intro s bytes eos ops idle pending
  have feed : step s = .next (hostFeed bytes eos (takeOp ops s)) := step_of_pending idle pending
  refine ⟨fun live more => ⟨_, ?_, fun a => Memory.read_writeBytes s.dec.input s.dec.avail a bytes⟩, fun refused => ?_⟩
  · rw [feed, hostFeed_accepted (s := takeOp ops s) eos live more]
    rfl
  · rw [feed, hostFeed_refused (s := takeOp ops s) eos refused]
    rfl

/-! ### The canonical form -/

/-- The canonical form of IN and IMG. -/
structure Canonical (s : State) : Prop where
  input : s.dec.input.wf
  image : ∀ img, s.dec.img = some img → img.pix.wf

/-- A decoder with the same byte spaces. -/
theorem Canonical.withDec {s : State} (h : Canonical s) {d : Decoder} (input : d.input = s.dec.input) (img : d.img = s.dec.img) :
    Canonical (s.withDec d) := ⟨input ▸ h.input, fun i hi => h.image i (img ▸ hi)⟩

theorem Canonical.of_dec_eq {s t : State} (h : Canonical s) (dec : t.dec = s.dec) : Canonical t := ⟨dec ▸ h.input, dec ▸ h.image⟩

theorem Canonical.errorEntry {s : State} {e : Err} (h : Canonical s) : Canonical (errorEntry e s) := by
  rw [errorEntry_eq]
  exact ⟨h.input, h.image⟩

theorem needMore_canonical {s : State} (h : Canonical s) : Ends Canonical (needMore s) := ends_needMore (h.of_dec_eq rfl) (h.errorEntry)

/-- A frame header allocates an empty IMG, EOI writes the density only, and no other instruction writes IN or IMG. -/
theorem exec_canonical {s : State} (h : Canonical s) (i : Instr) : Ends Canonical (exec i s) := by
  intro t ht
  cases exec_ends i s t ht with
  | symbolRaises e => exact h.errorEntry
  | endsBlock => exact h.withDec rfl rfl
  | startsAmplitude => exact h.withDec rfl rfl
  | refuses e => exact (h.withDec (d := (s.consume 2).dec) rfl rfl).errorEntry
  | startOfImage => exact h.withDec rfl rfl
  | delivers img _ present =>
    rw [signalCompletion_eq]
    refine ⟨h.input, fun img' hi => ?_⟩
    cases hi
    exact h.image img present
  | selects => exact h.withDec rfl rfl
  | selectsFrame => exact h.withDec rfl rfl
  | holds => exact h.of_dec_eq rfl
  | fails e _ writes => cases writes <;> exact Canonical.errorEntry (h.withDec rfl rfl)
  | retires _ _ writes =>
    cases writes with
    | tables writes => cases writes <;> exact h.withDec rfl rfl
    | frame =>
      refine ⟨h.input, fun img hi => ?_⟩
      cases hi
      exact List.Pairwise.nil
    | jfif => exact h.withDec rfl rfl
    | comment => exact h.withDec rfl rfl
  | startsScan => exact h.withDec rfl rfl

theorem convertPixel_wf {mode : RoundMode} {pix pix' : Memory} {o : Nat} (h : pix.wf) (converted : convertPixel mode pix o = .ok pix') :
    pix'.wf := by
  unfold convertPixel at converted
  split at converted <;> cases converted
  exact Memory.wf_write (Memory.wf_write (Memory.wf_write h _ _) _ _) _ _

theorem placePixel_wf {mode : RoundMode} {d : Decoder} {index : Nat} {conv : Bool} {pix pix' : Memory} {w : (Nat × Nat) × Byte} (h : pix.wf)
    (placed : placePixel mode d index conv pix w = .ok pix') : pix'.wf := by
  unfold placePixel at placed
  dsimp only at placed
  split at placed
  · cases placed
  · split at placed
    · exact convertPixel_wf (Memory.wf_write h _ _) placed
    · cases placed
      exact Memory.wf_write h _ _

theorem placePixels_wf {mode : RoundMode} {d : Decoder} {index : Nat} {conv : Bool} {pix pix' : Memory} {ws : List ((Nat × Nat) × Byte)}
    (h : pix.wf) (placed : placePixels mode d index conv pix ws = .ok pix') : pix'.wf := by
  induction ws generalizing pix with
  | nil =>
    cases placed
    exact h
  | cons w ws ih =>
    unfold placePixels at placed
    split at placed
    · cases placed
    · exact ih (placePixel_wf h (by assumption)) placed

theorem advanceCursors_spaces (d : Decoder) (j : Nat) (c : Component) :
    (advanceCursors d j c).input = d.input ∧ (advanceCursors d j c).img = d.img := by
  rcases advanceCursors_cases d j c with ⟨-, h⟩ | ⟨-, ⟨-, h⟩ | ⟨-, ⟨-, h⟩ | ⟨-, h⟩⟩⟩ <;> rw [h] <;> exact ⟨rfl, rfl⟩

theorem dataUnitComplete_canonical {s : State} {j : Nat} {c : Component} (h : Canonical s) : Ends Canonical (dataUnitComplete s j c) := by
  refine ends_dataUnitComplete (h.errorEntry) fun img samples pix present placed => ?_
  obtain ⟨input, image⟩ := advanceCursors_spaces { s.dec with img := some { img with pix := pix } } j c
  refine ⟨input ▸ h.input, fun img' hi => ?_⟩
  cases image.symm.trans hi
  exact placePixels_wf (h.image img present) placed

theorem addCoef_canonical {s : State} {j : Nat} {c : Component} {run : Nat} {v : Int} (h : Canonical s) : Ends Canonical (addCoef s j c run v) :=
  ends_addCoef (h.errorEntry) (fun _ _ _ => Canonical.errorEntry (h.withDec rfl rfl)) (fun _ _ _ => h.withDec rfl rfl)
    fun _ _ => dataUnitComplete_canonical (h.withDec rfl rfl)

theorem resolveAmplitude_canonical {s : State} {j : Nat} {c : Component} (h : Canonical s) : Ends Canonical (resolveAmplitude s j c) :=
  ends_resolveAmplitude (h.errorEntry) (fun _ _ => addCoef_canonical (h.withDec rfl rfl))
    fun _ => addCoef_canonical (h.withDec rfl rfl)

theorem eobStep_canonical {s : State} {j : Nat} {c : Component} (h : Canonical s) : Ends Canonical (eobStep s j c) :=
  ends_eobStep fun _ _ => dataUnitComplete_canonical (h.withDec rfl rfl)

theorem settle_canonical {s : State} (h : Canonical s) : Ends Canonical (settle s) :=
  ends_settle (fun _ => h) (fun _ _ => h) (fun _ _ _ _ _ => resolveAmplitude_canonical h) fun _ _ _ _ => eobStep_canonical h

theorem magnitudeBit_canonical {s : State} {c : Component} {b : Bool} (h : Canonical s) : Ends Canonical (magnitudeBit s c b) :=
  ends_magnitudeBit (fun _ => h.withDec rfl rfl) (fun _ => Canonical.errorEntry (h.withDec rfl rfl))
    (fun _ => Canonical.errorEntry (h.withDec rfl rfl))
    (settle_canonical (h.withDec rfl rfl)) fun _ _ _ _ => settle_canonical (h.withDec rfl rfl)

theorem readBit_spaces {d d' : Decoder} {b : Bool} (h : readBit d = .bit b d') : d'.input = d.input ∧ d'.img = d.img := by
  rcases readBit_bit h with ⟨-, -, rfl⟩ | ⟨-, _, -, -, ⟨-, -, rfl⟩ | ⟨-, -, -, rfl⟩⟩ <;> exact ⟨rfl, rfl⟩

theorem scanUnit_canonical {s : State} (h : Canonical s) : Ends Canonical (scanUnit s) := by
  refine ends_scanUnit (needMore_canonical h) (fun d hr => ?_) (fun _ _ _ d _ _ hr => ?_) (fun _ _ b d _ _ _ hr => ?_)
    (fun _ _ _ _ _ => resolveAmplitude_canonical h) fun _ _ _ _ => eobStep_canonical h
  · obtain ⟨-, -, -, -, rfl⟩ := readBit_markerSeen hr
    exact h.withDec rfl rfl
  · obtain ⟨input, img⟩ := readBit_spaces hr
    exact magnitudeBit_canonical (h.withDec input img)
  · obtain ⟨input, img⟩ := readBit_spaces hr
    exact settle_canonical (h.withDec input img)

theorem hostFeed_canonical {s : State} (h : Canonical s) (bytes : List Byte) (eos : Bool) : Canonical (hostFeed bytes eos s) := by
  unfold hostFeed
  split
  · exact h.of_dec_eq rfl
  · split
    · exact h.of_dec_eq rfl
    · exact ⟨Memory.wf_writeBytes h.input _ _, h.image⟩

theorem hostCancel_canonical {s : State} (h : Canonical s) : Canonical (hostCancel s) := by
  unfold hostCancel
  split
  · exact h
  · exact Canonical.errorEntry (h.withDec rfl rfl)

theorem hostConstruct_canonical (s : State) : Canonical (hostConstruct s) := ⟨List.Pairwise.nil, nofun⟩

theorem hostStep_canonical {s : State} (h : Canonical s) (op : HostOp) : Ends Canonical (hostStep op s) := by
  cases op with
  | construct => exact (ends_next _ _).2 (hostConstruct_canonical s)
  | feed bytes eos => exact (ends_next _ _).2 (hostFeed_canonical h bytes eos)
  | cancel => exact (ends_next _ _).2 (hostCancel_canonical h)
  | getImage => exact (ends_next _ _).2 (h.of_dec_eq rfl)
  | getError => exact (ends_next _ _).2 (h.of_dec_eq rfl)
  | getComment => exact (ends_next _ _).2 (h.of_dec_eq rfl)
  | consumed => exact (ends_next _ _).2 (h.of_dec_eq rfl)
  | decodeSync bytes => exact (ends_next _ _).2 (hostFeed_canonical (hostConstruct_canonical s) bytes true)
  | constructEncoder img => exact (ends_next _ _).2 (h.of_dec_eq rfl)
  | encode =>
    unfold hostStep
    dsimp only
    split
    · exact (ends_next _ _).2 (h.of_dec_eq (hostEncode_dec _ s))
    · exact ends_refused _ _

theorem step_canonical {s : State} (h : Canonical s) : Ends Canonical (step s) := by
  by_cases running : s.host.running = true
  · exact ends_step_running running (fun _ => h.of_dec_eq rfl) (fun _ => h.errorEntry) fun live _ =>
      ends_unitOfWork live (fun _ => needMore_canonical h) (fun _ => h.errorEntry) (fun i _ => exec_canonical h i) fun _ => scanUnit_canonical h
  · unfold step
    rw [if_neg running]
    split
    · exact (ends_next _ _).2 h
    · rename_i op ops _
      exact hostStep_canonical (s := takeOp ops s) (h.of_dec_eq rfl) op

/-- Settles O54: every write to a byte space is `Memory.write`, which keeps the form. -/
theorem stepKeepsCanonicalMemory : Obligations.StepKeepsCanonicalMemory := by
  intro s t input image h
  obtain ⟨input', image'⟩ := step_canonical ⟨input, image⟩ t h
  exact ⟨input', image'⟩

end Sys2Proof.Machine
end

section
/-! SUPPORT. What placement without conversion leaves in IMG (43_mcu_color R144 to R146): the pixels of a data unit written out, each pixel
that of one sample, and every other cell as before. -/

namespace Sys2Proof.Machine

/-! ### The pixels of a data unit -/

/-- The pixel at place `(i, j)` of the block of the sample at row `yy`, column `xx` (R144, R145). -/
def blockPixel (d : Decoder) (c : Component) (yy xx i j : Nat) : Nat × Nat :=
  ((sampleOrigin d c yy xx).1 + i, (sampleOrigin d c yy xx).2 + j)

/-- The cell is inside the data unit, the sample's block and the image (R145, R146). -/
structure InBlock (d : Decoder) (c : Component) (yy xx i j : Nat) : Prop where
  row : yy < 8
  column : xx < 8
  across : i < d.hmax / c.h
  down : j < d.vmax / c.v
  width : (blockPixel d c yy xx i j).1 < d.width.toNat
  height : (blockPixel d c yy xx i j).2 < d.height.toNat

theorem mem_unitPixels_iff {d : Decoder} {c : Component} {samples : Vector Byte 64} {w : (Nat × Nat) × Byte} :
    w ∈ unitPixels d c samples ↔
      ∃ yy xx i j, InBlock d c yy xx i j ∧ w = (blockPixel d c yy xx i j, samples.toList.getD (8 * yy + xx) 0) := by
  unfold unitPixels
  simp only [List.mem_flatMap, List.mem_range, List.mem_map]
  constructor
  · rintro ⟨n, hn, p, hp, rfl⟩
    obtain ⟨hx, hy, i, hi, j, hj, ex, ey⟩ := mem_samplePixels.1 hp
    have eq : blockPixel d c (n / 8) (n % 8) i j = p := Prod.ext ex.symm ey.symm
    exact ⟨n / 8, n % 8, i, j, ⟨by omega, by omega, hi, hj, eq ▸ hx, eq ▸ hy⟩, by rw [eq, Nat.div_add_mod]⟩
  · rintro ⟨yy, xx, i, j, h, rfl⟩
    have row := h.row
    have column := h.column
    refine ⟨8 * yy + xx, by omega, blockPixel d c yy xx i j, mem_samplePixels.2 ⟨h.width, h.height, i, h.across, j, h.down, ?_⟩, rfl⟩
    rw [show (8 * yy + xx) / 8 = yy by omega, show (8 * yy + xx) % 8 = xx by omega]
    exact ⟨rfl, rfl⟩

/-- Along one axis the blocks of different samples do not meet. -/
theorem axis_inj {base n s x x' i i' : Nat} (hi : i < s) (hi' : i' < s) (eq : base + (n + x) * s + i = base + (n + x') * s + i') : x = x' := by
  have quotient : ∀ {y k}, k < s → ((n + y) * s + k) / s = n + y := fun {y k} hk => by
    rw [Nat.mul_comm, Nat.mul_add_div (by omega), Nat.div_eq_of_lt hk, Nat.add_zero]
  have same := congrArg (· / s) (by omega : (n + x) * s + i = (n + x') * s + i')
  simp only [quotient hi, quotient hi'] at same
  omega

/-- A pixel belongs to one sample. -/
theorem blockPixel_inj {d : Decoder} {c : Component} {yy xx i j yy' xx' i' j' : Nat} (h : InBlock d c yy xx i j)
    (h' : InBlock d c yy' xx' i' j') (eq : blockPixel d c yy xx i j = blockPixel d c yy' xx' i' j') : yy = yy' ∧ xx = xx' :=
  ⟨axis_inj h.down h'.down (congrArg Prod.snd eq), axis_inj h.across h'.across (congrArg Prod.fst eq)⟩

/-- Different pixels of a row have different cells (20_memory R59). -/
theorem pixelOffset_inj {d : Decoder} {p p' : Nat × Nat} {index : Nat} (nf : 0 < d.nf) (h : p.1 < d.width.toNat) (h' : p'.1 < d.width.toNat)
    (eq : pixelOffset d p + index = pixelOffset d p' + index) : p = p' := by
  have place : p.2 * d.width.toNat + p.1 = p'.2 * d.width.toNat + p'.1 :=
    Nat.eq_of_mul_eq_mul_right nf (Nat.add_right_cancel eq)
  have split : ∀ {q : Nat × Nat}, q.1 < d.width.toNat →
      (q.2 * d.width.toNat + q.1) / d.width.toNat = q.2 ∧ (q.2 * d.width.toNat + q.1) % d.width.toNat = q.1 := fun {q} hq => by
    rw [Nat.mul_comm, Nat.mul_add_div (by omega), Nat.mul_add_mod, Nat.div_eq_of_lt hq, Nat.mod_eq_of_lt hq]
    exact ⟨rfl, rfl⟩
  obtain ⟨row, column⟩ := split h
  obtain ⟨row', column'⟩ := split h'
  exact Prod.ext (by rw [← column, ← column', place]) (by rw [← row, ← row', place])

/-! ### The cells written -/

/-- Without conversion every pixel is one cell written. A cell that pixels of one value write reads as that value, and a cell that none
writes reads as before. -/
theorem placePixels_read {mode : RoundMode} {d : Decoder} {index : Nat} {ws : List ((Nat × Nat) × Byte)} {pix : Memory}
    (inside : ∀ w ∈ ws, pixelOffset d w.1 + index < imageSize d) : ∃ pix', placePixels mode d index false pix ws = .ok pix'
      ∧ (∀ o v, (∃ w ∈ ws, o = pixelOffset d w.1 + index) → (∀ w ∈ ws, o = pixelOffset d w.1 + index → w.2 = v) →
        Memory.read pix' o = some v)
      ∧ ∀ o, (∀ w ∈ ws, o ≠ pixelOffset d w.1 + index) → Memory.read pix' o = Memory.read pix o := by
  induction ws generalizing pix with
  | nil => exact ⟨pix, rfl, fun _ _ written => by simp at written, fun _ _ => rfl⟩
  | cons w ws ih =>
    have here := inside w List.mem_cons_self
    obtain ⟨pix', placed, written, kept⟩ :=
      ih (pix := Memory.write pix (pixelOffset d w.1 + index) w.2) fun w' hw => inside w' (List.mem_cons_of_mem w hw)
    refine ⟨pix', ?_, fun o v ho value => ?_, fun o other => ?_⟩
    · rw [placePixels, placePixel, if_neg (Nat.not_le.2 here)]
      exact placed
    · by_cases later : ∃ w' ∈ ws, o = pixelOffset d w'.1 + index
      · exact written o v later fun w' hw => value w' (List.mem_cons_of_mem w hw)
      · have first : o = pixelOffset d w.1 + index := by
          obtain ⟨w', hw, eq⟩ := ho
          rcases List.mem_cons.1 hw with rfl | hw
          · exact eq
          · exact absurd ⟨w', hw, eq⟩ later
        rw [kept o fun w' hw eq => later ⟨w', hw, eq⟩, first, Memory.read_write_same, value w List.mem_cons_self first]
    · rw [kept o fun w' hw => other w' (List.mem_cons_of_mem w hw), Memory.read_write_other _ _ (other w List.mem_cons_self)]

theorem dataUnitComplete_overflow {s : State} (j : Nat) {c : Component} (h : idctSamples s.cfg c.scratch = none) :
    dataUnitComplete s j c = .next (errorEntry .e36 s) := by
  unfold dataUnitComplete
  rw [h]
  rfl

theorem dataUnitComplete_placed {s : State} (j : Nat) {c : Component} {img : Image} {samples : Vector Byte 64} {pix : Memory}
    (sampled : idctSamples s.cfg c.scratch = some samples) (present : s.dec.img = some img)
    (placed : placePixels s.cfg.ccRound s.dec c.index (convertsNow s.dec) img.pix (unitPixels s.dec c samples) = .ok pix) :
    dataUnitComplete s j c = .next (s.withDec (advanceCursors { s.dec with img := some { img with pix := pix } } j c)) := by
  unfold dataUnitComplete
  simp only [sampled, present, placed]

/-- The data unit's cells lie in IMG; `D.k`, which is 64 when completion runs, has no part in it. -/
theorem unit_cells_inside {s : State} {j : Nat} {c : Component} (h : (s.withDec { s.dec with k := 0 }).Safe) (seg : s.dec.seg = .scan)
    (active : s.dec.active = some (j, c)) (samples : Vector Byte 64) :
    0 < s.dec.nf ∧ ∀ w ∈ unitPixels s.dec c samples, pixelOffset s.dec w.1 + c.index < imageSize s.dec := by
  have inScan : Decoder.InScan { s.dec with k := 0 } := h.inScan seg
  have activeOk : ActiveOk { s.dec with k := 0 } j c := inScan.activeOk active
  exact ⟨Nat.zero_lt_of_lt activeOk.lt, fun _ hw => inScan.cell_inside activeOk samples hw⟩

/-- Settles O32: placement writes one cell per pixel of the data unit, and no two samples share one. -/
theorem placementWritesItsPixels : Obligations.PlacementWritesItsPixels := by
  refine ⟨fun s j c overflow => dataUnitComplete_overflow j overflow, fun s j c img samples safe seg active present sampled noConversion => ?_⟩
  obtain ⟨nf, inside⟩ := unit_cells_inside safe seg active samples
  obtain ⟨pix, placed, written, kept⟩ := placePixels_read (mode := s.cfg.ccRound) (pix := img.pix) inside
  have plain : convertsNow s.dec = false := by
    simpa [convertsNow] using noConversion
  refine ⟨pix, dataUnitComplete_placed j sampled present (plain ▸ placed), fun yy xx i j' hyy hxx hi hj hx hy => ?_, fun o other => ?_⟩
  · have block : InBlock s.dec c yy xx i j' := ⟨hyy, hxx, hi, hj, hx, hy⟩
    have value := written _ (samples.toList.getD (8 * yy + xx) 0) ⟨_, mem_unitPixels_iff.2 ⟨yy, xx, i, j', block, rfl⟩, rfl⟩ fun w hw eq => by
      obtain ⟨yy', xx', i', j'', block', rfl⟩ := mem_unitPixels_iff.1 hw
      obtain ⟨rfl, rfl⟩ := blockPixel_inj block block' (pixelOffset_inj nf block.width block'.width eq)
      rfl
    have sample : samples.toList[8 * yy + xx]? = some (samples.toList.getD (8 * yy + xx) 0) := by
      rw [List.getD_eq_getElem?_getD, List.getElem?_eq_getElem (by rw [Vector.length_toList]; omega), Option.getD_some]
    exact value.trans sample.symm
  · refine kept o fun w hw => ?_
    obtain ⟨yy, xx, i, j', block, rfl⟩ := mem_unitPixels_iff.1 hw
    exact other yy xx i j' block.row block.column block.across block.down block.width block.height

end Sys2Proof.Machine
end

section
/-! SUPPORT. More input leaves a unit of work that does not hold as it is (20_memory R68, 46_host_interface R194): every operation does the same
from a state with further bytes supplied, and from one with other replies, and its result differs by those alone. -/

namespace Sys2Proof.Machine

/-! ### A state with more input -/

/-- What is added to a state: further bytes with their end of stream, and a change of the replies, which no unit of work reads. -/
structure Extra where
  bytes : List Byte
  eos : Bool
  replies : List Reply → List Reply

/-- No byte and no end of stream. -/
structure Extra.Silent (x : Extra) : Prop where
  bytes : x.bytes = []
  eos : x.eos = false

/-- More input. -/
def Extra.input (bytes : List Byte) (eos : Bool) : Extra := ⟨bytes, eos, id⟩

/-- One reply more. -/
def Extra.reply (r : Reply) : Extra := ⟨[], false, (· ++ [r])⟩

theorem Extra.reply_silent (r : Reply) : (Extra.reply r).Silent := ⟨rfl, rfl⟩

/-- The state with the extra. -/
def State.extend (s : State) (x : Extra) : State :=
  { s with dec := s.dec.supply x.bytes x.eos, host := { s.host with replies := x.replies s.host.replies } }

@[simp] theorem State.extend_dec (s : State) (x : Extra) : (s.extend x).dec = s.dec.supply x.bytes x.eos := rfl
@[simp] theorem State.extend_cfg (s : State) (x : Extra) : (s.extend x).cfg = s.cfg := rfl
@[simp] theorem State.extend_running (s : State) (x : Extra) : (s.extend x).host.running = s.host.running := rfl

@[simp] theorem Decoder.supply_nothing (d : Decoder) : d.supply [] false = d := by
  cases d
  simp [Decoder.supply, Memory.writeBytes]

theorem Extra.Silent.extend_dec {x : Extra} (h : x.Silent) (s : State) : (s.extend x).dec = s.dec := by
  rw [State.extend_dec, h.bytes, h.eos, Decoder.supply_nothing]

theorem read_supply {d : Decoder} {bytes : List Byte} {eos : Bool} {a : Nat} {v : Byte} (h : a < d.avail) (read : Memory.read d.input a = some v) :
    Memory.read (d.supply bytes eos).input a = some v := (Memory.read_writeBytes_below _ _ h).trans read

@[simp] theorem Decoder.supply_active (d : Decoder) (bytes : List Byte) (eos : Bool) : (d.supply bytes eos).active = d.active := rfl

theorem errorEntry_extend (e : Err) (s : State) (x : Extra) : errorEntry e (s.extend x) = (errorEntry e s).extend x := by
  rw [errorEntry_eq, errorEntry_eq]
  rfl

theorem errorEntry_running (e : Err) (s : State) : (errorEntry e s).host.running = s.host.running := by
  rw [errorEntry_eq]

section
variable {x : Extra}

/-- `o'` goes on as `o` does, with the extra added; the Feed still runs. -/
def Tracks (x : Extra) (o o' : Host.Outcome State Fault Refusal) : Prop :=
  Ends (fun t => t.host.running = true ∧ o' = .next (t.extend x)) o

/-- `o'` tracks `o`, or `o` returns to the host, and so does `o'` when no input is added. -/
def Follows (x : Extra) (s : State) (o o' : Host.Outcome State Fault Refusal) : Prop :=
  Ends (fun t => t.host.running = true ∧ o' = .next (t.extend x)
    ∨ t = feedReturn s ∧ (x.Silent → o' = .next (feedReturn (s.extend x)))) o

theorem Tracks.follows {s : State} {o o' : Host.Outcome State Fault Refusal} (h : Tracks x o o') : Follows x s o o' := h.mono fun _ => .inl

theorem tracks_next {t : State} (running : t.host.running = true) : Tracks x (.next t) (.next (t.extend x)) :=
  (ends_next _ _).2 ⟨running, rfl⟩

theorem tracks_raise {s : State} {e : Err} (running : s.host.running = true) : Tracks x (raise e s) (raise e (s.extend x)) :=
  (ends_raise _ _ _).2 ⟨(errorEntry_running e s).trans running, congrArg Host.Outcome.next (errorEntry_extend e s x)⟩

/-- An operation whose condition reads neither input nor replies branches alike on both states. -/
theorem tracks_ite {p : Prop} [Decidable p] {a b a' b' : Host.Outcome State Fault Refusal} (pos : p → Tracks x a a') (neg : ¬p → Tracks x b b') :
    Tracks x (if p then a else b) (if p then a' else b') := by
  split
  · exact pos (by assumption)
  · exact neg (by assumption)

theorem follows_ite {s : State} {p : Prop} [Decidable p] {a b a' b' : Host.Outcome State Fault Refusal} (pos : p → Follows x s a a')
    (neg : ¬p → Follows x s b b') : Follows x s (if p then a else b) (if p then a' else b') := by
  split
  · exact pos (by assumption)
  · exact neg (by assumption)

theorem tracks_andThen {o o' : Host.Outcome State Fault Refusal} {f : State → Host.Outcome State Fault Refusal} (h : Tracks x o o')
    (hf : ∀ t, t.host.running = true → Tracks x (f t) (f (t.extend x))) : Tracks x (andThen o f) (andThen o' f) := by
  refine ends_andThen (h.mono fun t ⟨running, eq⟩ => ?_)
  rw [eq]
  exact hf t running

/-! ### Placement and cursors -/

theorem placePixels_supply (mode : RoundMode) (d : Decoder) (bytes : List Byte) (eos : Bool) (index : Nat) (conv : Bool) (pix : Memory)
    (ws : List ((Nat × Nat) × Byte)) : placePixels mode (d.supply bytes eos) index conv pix ws = placePixels mode d index conv pix ws := by
  induction ws generalizing pix with
  | nil => rfl
  | cons w ws ih =>
    have pixel : placePixel mode (d.supply bytes eos) index conv pix w = placePixel mode d index conv pix w := rfl
    simp only [placePixels, pixel, ih]

theorem supply_ite {p : Prop} [Decidable p] {a a' b b' : Decoder} {bytes : List Byte} {eos : Bool} (pos : p → a' = a.supply bytes eos)
    (neg : ¬p → b' = b.supply bytes eos) : (if p then a' else b') = (if p then a else b).supply bytes eos := by
  split
  · exact pos (by assumption)
  · exact neg (by assumption)

/-- The cursors' three conditions (43_mcu_color R149, R150) read no input. -/
theorem advanceCursors_supply (d : Decoder) (bytes : List Byte) (eos : Bool) (j : Nat) (c : Component) :
    advanceCursors (d.supply bytes eos) j c = (advanceCursors d j c).supply bytes eos :=
  supply_ite (fun _ => supply_ite (fun _ => supply_ite (fun _ => rfl) fun _ => rfl) fun _ => rfl) fun _ => rfl

/-- `DataUnitComplete` (43_mcu_color R143) reads no input. -/
theorem dataUnitComplete_tracks {s : State} {j : Nat} {c : Component} (running : s.host.running = true) :
    Tracks x (dataUnitComplete s j c) (dataUnitComplete (s.extend x) j c) := by
  cases sampled : idctSamples s.cfg c.scratch with
  | none =>
    rw [dataUnitComplete_overflow j sampled, dataUnitComplete_overflow (s := s.extend x) j sampled]
    exact tracks_raise running
  | some samples =>
    cases present : s.dec.img with
    | none =>
      simp only [dataUnitComplete, sampled, present]
      exact ends_fault _ _
    | some img =>
      cases placed : placePixels s.cfg.ccRound s.dec c.index (convertsNow s.dec) img.pix (unitPixels s.dec c samples) with
      | error f =>
        simp only [dataUnitComplete, sampled, present, placed]
        exact ends_fault _ _
      | ok pix =>
        rw [dataUnitComplete_placed j sampled present placed, dataUnitComplete_placed (s := s.extend x) j sampled present
          ((placePixels_supply _ _ _ _ _ _ _ _).trans placed)]
        have cursors := advanceCursors_supply { s.dec with img := some { img with pix := pix } } x.bytes x.eos j c
        exact (ends_next _ _).2 ⟨running, congrArg (fun d => Host.Outcome.next ((s.extend x).withDec d)) cursors⟩

/-! ### Coefficients, symbols and bits -/

/-- `AddCoef` (42_entropy R139): the run check, the range check, and the last coefficient. -/
theorem addCoef_tracks {s : State} {j : Nat} {c : Component} {run : Nat} {v : Int} (running : s.host.running = true) :
    Tracks x (addCoef s j c run v) (addCoef (s.extend x) j c run v) :=
  tracks_ite (fun _ => tracks_raise running) fun _ =>
    tracks_ite
      (fun _ => tracks_ite (fun _ => dataUnitComplete_tracks (s := s.withDec _) running) fun _ => tracks_next (t := s.withDec _) running)
      fun _ => tracks_raise (s := s.withDec _) running

/-- The amplitude's value (42_entropy R137): the first coefficient with its range check, or another. -/
theorem resolveAmplitude_tracks {s : State} {j : Nat} {c : Component} (running : s.host.running = true) :
    Tracks x (resolveAmplitude s j c) (resolveAmplitude (s.extend x) j c) :=
  tracks_ite (fun _ => tracks_ite (fun _ => addCoef_tracks (s := s.withDec _) running) fun _ => tracks_raise running)
    fun _ => addCoef_tracks (s := s.withDec _) running

theorem eobStep_tracks {s : State} {j : Nat} {c : Component} (running : s.host.running = true) :
    Tracks x (eobStep s j c) (eobStep (s.extend x) j c) := dataUnitComplete_tracks (s := s.withDec _) running

theorem settle_tracks {s : State} (running : s.host.running = true) : Tracks x (settle s) (settle (s.extend x)) := by
  by_cases seg : s.dec.seg = .scan
  · cases active : s.dec.active with
    | none =>
      simp only [settle, seg, active, if_true]
      exact ends_fault _ _
    | some jc =>
      simp only [settle, State.extend_dec, Decoder.supply_seg, Decoder.supply_active, Decoder.supply_sub, seg, active, if_true]
      cases s.dec.sub with
      | magnitude => exact tracks_next running
      | amplitude => exact tracks_ite (fun _ => tracks_next running) fun _ => resolveAmplitude_tracks running
      | endOfBlockCount => exact eobStep_tracks running
  · rw [settle_of_not_scan seg, settle_of_not_scan (s := s.extend x) seg]
    exact tracks_next running

theorem dcSymbolOf_kind (v : Byte) : (dcSymbolOf v).kind = .dcSymbol := by
  unfold dcSymbolOf
  repeat' split
  all_goals rfl

theorem acSymbolOf_kind (v : Byte) : (acSymbolOf v).kind = .acSymbol := by
  unfold acSymbolOf acZeroSizeOf
  repeat' split
  all_goals rfl

theorem decodeSymbol_not_marker (k : Nat) (v : Byte) : (decodeSymbol k v).kind ≠ .marker := by
  unfold decodeSymbol
  split
  · rw [dcSymbolOf_kind]
    decide
  · rw [acSymbolOf_kind]
    decide

/-- A symbol's instruction reads no input. -/
theorem exec_symbol_tracks {s : State} {i : Instr} (symbol : i.kind ≠ .marker) (running : s.host.running = true) :
    Tracks x (exec i s) (exec i (s.extend x)) := by
  rcases exec_of_symbol symbol with ⟨e, he⟩ | rfl | ⟨run, mag, -, -, he⟩
  · rw [he, he]
    exact tracks_raise running
  · exact tracks_next (t := s.withDec _) running
  · rw [he, he]
    exact tracks_next (t := s.withDec _) running

/-- What the code with one more bit looks up (41_huffman R117, 42_entropy R128). -/
def codeLookup (d : Decoder) (c : Component) (b : Bool) : HuffResult :=
  huffStep (currentTable (appendCodeBit b d) c) (appendCodeBit b d).hcode (appendCodeBit b d).hwidth

theorem magnitudeBit_more {s : State} {c : Component} {b : Bool} (h : codeLookup s.dec c b = .more) :
    magnitudeBit s c b = .next (s.withDec (appendCodeBit b s.dec)) := by
  unfold codeLookup at h
  simp only [magnitudeBit, State.withDec_dec, h]

theorem magnitudeBit_error {s : State} {c : Component} {b : Bool} {e : Err} (h : codeLookup s.dec c b = .error e) :
    magnitudeBit s c b = raise e (s.withDec (appendCodeBit b s.dec)) := by
  unfold codeLookup at h
  simp only [magnitudeBit, State.withDec_dec, h]

theorem magnitudeBit_symbol {s : State} {c : Component} {b : Bool} {v : Byte} (h : codeLookup s.dec c b = .symbol v) :
    magnitudeBit s c b = andThen (exec (decodeSymbol s.dec.k v) (s.withDec (clearCode s.dec))) settle := by
  unfold codeLookup at h
  simp only [magnitudeBit, State.withDec_dec, h]
  rfl

theorem magnitudeBit_tracks {s : State} {c : Component} {b : Bool} (running : s.host.running = true) :
    Tracks x (magnitudeBit s c b) (magnitudeBit (s.extend x) c b) := by
  cases lookup : codeLookup s.dec c b with
  | more =>
    rw [magnitudeBit_more lookup, magnitudeBit_more (s := s.extend x) lookup]
    exact tracks_next (t := s.withDec _) running
  | error e =>
    rw [magnitudeBit_error lookup, magnitudeBit_error (s := s.extend x) lookup]
    exact tracks_raise (s := s.withDec _) running
  | symbol v =>
    rw [magnitudeBit_symbol lookup, magnitudeBit_symbol (s := s.extend x) lookup]
    exact tracks_andThen (exec_symbol_tracks (s := s.withDec _) (decodeSymbol_not_marker _ v) running) fun _ => settle_tracks

theorem readBit_marker {d : Decoder} {v : Byte} (empty : d.nbits = 0) (supplied : d.pos + 2 ≤ d.avail) (ff : Memory.read d.input d.pos = some 0xFF)
    (code : Memory.read d.input (d.pos + 1) = some v) (nonzero : v ≠ 0) : readBit d = .markerSeen { d with seg := .marker } := by
  unfold readBit
  rw [if_neg (by omega), if_neg (by omega), ff]
  dsimp only
  rw [if_pos rfl, if_neg (by omega), code]
  exact if_neg nonzero

/-- A bit that is read without more input is read with it: every byte looked at lies below `D.avail`. -/
theorem readBit_supply_bit {d d' : Decoder} {b : Bool} (bytes : List Byte) (eos : Bool) (h : readBit d = .bit b d') :
    readBit (d.supply bytes eos) = .bit b (d'.supply bytes eos) := by
  rcases readBit_bit h with ⟨pending, rfl, rfl⟩ | ⟨empty, v, data, rfl, ⟨plain, supplied, rfl⟩ | ⟨rfl, supplied, zero, rfl⟩⟩
  · exact readBit_pending (d := d.supply bytes eos) pending
  · exact readBit_data (d := d.supply bytes eos) empty (read_supply (a := d.pos) (by omega) data) plain (supplied.trans (Nat.le_add_right _ _))
  · exact readBit_stuffed (d := d.supply bytes eos) empty (read_supply (a := d.pos) (by omega) data) (read_supply (a := d.pos + 1) (by omega) zero)
      (supplied.trans (Nat.le_add_right _ _))

theorem readBit_supply_marker {d d' : Decoder} (bytes : List Byte) (eos : Bool) (h : readBit d = .markerSeen d') :
    readBit (d.supply bytes eos) = .markerSeen (d'.supply bytes eos) := by
  obtain ⟨empty, supplied, ff, ⟨v, code, nonzero⟩, rfl⟩ := readBit_markerSeen h
  exact readBit_marker (d := d.supply bytes eos) empty (supplied.trans (Nat.le_add_right _ _)) (read_supply (a := d.pos) (by omega) ff)
    (read_supply (a := d.pos + 1) (by omega) code) nonzero

/-! ### Holds and units of work -/

/-- When a hold may happen: it waits for more input, or none is added. -/
def MayHold (x : Extra) (s : State) : Prop := s.dec.eos = false ∨ x.Silent

/-- A hold (00_scope R13) either waits and returns to the host, or raises E37 also without further input. -/
theorem needMore_follows {s : State} {o' : Host.Outcome State Fault Refusal} (running : s.host.running = true) (wait : MayHold x s)
    (same : x.Silent → o' = needMore (s.extend x)) : Follows x s (needMore s) o' := by
  cases eos : s.dec.eos with
  | false =>
    rw [needMore_waiting eos]
    refine (ends_next _ _).2 (.inr ⟨rfl, fun silent => ?_⟩)
    rw [same silent, needMore_waiting (by rw [silent.extend_dec, eos])]
  | true =>
    have silent := wait.resolve_left (by simp [eos])
    rw [same silent, needMore_eos eos, needMore_eos (by rw [silent.extend_dec, eos])]
    exact Tracks.follows (tracks_raise running)

theorem withBit_follows {s : State} {body : Bool → State → Host.Outcome State Fault Refusal} (running : s.host.running = true)
    (wait : MayHold x s) (bit : ∀ b d, Tracks x (body b (s.withDec d)) (body b ((s.withDec d).extend x))) :
    Follows x s (withBit s body) (withBit (s.extend x) body) := by
  cases read : readBit s.dec with
  | bit b d =>
    have read' := readBit_supply_bit x.bytes x.eos read
    simp only [withBit, State.extend_dec, read, read']
    exact (bit b d).follows
  | markerSeen d =>
    have read' := readBit_supply_marker x.bytes x.eos read
    simp only [withBit, State.extend_dec, read, read']
    exact Tracks.follows (tracks_next (t := s.withDec d) running)
  | hold =>
    rw [withBit_hold read]
    exact needMore_follows running wait fun silent => withBit_hold (by rw [silent.extend_dec, read]) body
  | hole a =>
    simp only [withBit, read]
    exact ends_fault _ _

theorem scanUnit_follows {s : State} (running : s.host.running = true) (wait : MayHold x s) :
    Follows x s (scanUnit s) (scanUnit (s.extend x)) := by
  cases active : s.dec.active with
  | none =>
    simp only [scanUnit, active]
    exact ends_fault _ _
  | some jc =>
    simp only [scanUnit, State.extend_dec, Decoder.supply_active, Decoder.supply_sub, active]
    cases s.dec.sub with
    | magnitude => exact withBit_follows running wait fun b d => magnitudeBit_tracks (s := s.withDec d) running
    | amplitude =>
      exact follows_ite (fun _ => withBit_follows running wait fun b d => settle_tracks (s := s.withDec (amplitudeBit b d)) running)
        fun _ => (resolveAmplitude_tracks running).follows
    | endOfBlockCount => exact (eobStep_tracks running).follows

/-! ### Segment handlers -/

theorem be16_supply {d : Decoder} {bytes : List Byte} {eos : Bool} (supplied : d.pos + 2 ≤ d.avail) :
    Memory.be16 (d.supply bytes eos).input d.pos = Memory.be16 d.input d.pos :=
  Memory.be16_congr (Memory.read_writeBytes_below _ _ (by omega)) (Memory.read_writeBytes_below _ _ (by omega))

theorem segmentAt_supply {d : Decoder} {p : List Byte} (bytes : List Byte) (eos : Bool) (h : segmentAt d p) :
    segmentAt (d.supply bytes eos) p := by
  obtain ⟨supplied, length, payload⟩ := h
  refine ⟨supplied.trans (Nat.le_add_right _ _), (be16_supply (by omega)).trans length, Eq.trans ?_ payload⟩
  exact Memory.readBytes_congr fun i hi => Memory.read_writeBytes_below _ _ (by omega : d.pos + 2 + i < d.avail)

theorem badLength_supply {d : Decoder} (bytes : List Byte) (eos : Bool) (h : segFetch d = .badLength) :
    segFetch (d.supply bytes eos) = .badLength := by
  obtain ⟨supplied, len, length, short⟩ := segFetch_badLength.1 h
  exact segFetch_badLength.2 ⟨supplied.trans (Nat.le_add_right _ _), len, (be16_supply supplied).trans length, short⟩

theorem withSegment_follows {s : State} {body body' : Nat → List Byte → Host.Outcome State Fault Refusal} (running : s.host.running = true)
    (wait : MayHold x s) (ok : ∀ len p, Tracks x (body len p) (body' len p)) :
    Follows x s (withSegment s body) (withSegment (s.extend x) body') := by
  cases fetch : segFetch s.dec with
  | ok len p =>
    obtain ⟨rfl, at_pos⟩ := segFetch_ok.1 fetch
    rw [withSegment_ok at_pos, withSegment_ok (s := s.extend x) (segmentAt_supply _ _ at_pos)]
    exact (ok _ p).follows
  | hold =>
    rw [withSegment_hold fetch]
    exact needMore_follows running wait fun silent => withSegment_hold (by rw [silent.extend_dec, fetch]) body'
  | badLength =>
    simp only [withSegment, State.extend_dec, fetch, badLength_supply x.bytes x.eos fetch]
    exact Tracks.follows (tracks_raise running)
  | hole a =>
    simp only [withSegment, fetch]
    exact ends_fault _ _

theorem dqtBody_tracks {s : State} (running : s.host.running = true) (len : Nat) (p : List Byte) :
    Tracks x (dqtBody s len p) (dqtBody (s.extend x) len p) := by
  refine tracks_ite (fun _ => tracks_raise running) fun _ => ?_
  simp only [State.extend_dec, Decoder.supply_qt]
  cases (dqtEntries p.length p s.dec.qt).2 with
  | some e => exact tracks_raise (s := s.withDec _) running
  | none => exact tracks_next (t := segRetire len .marker (s.withDec _)) running

theorem setTable_supply (d : Decoder) (bytes : List Byte) (eos : Bool) (cls : Nat) (t : Fin 4) (h : HuffTable) :
    (d.supply bytes eos).setTable cls t h = (d.setTable cls t h).supply bytes eos := supply_ite (fun _ => rfl) fun _ => rfl

theorem dhtEntries_supply (fuel : Nat) (p : List Byte) (d : Decoder) (bytes : List Byte) (eos : Bool) :
    dhtEntries fuel p (d.supply bytes eos) = ((dhtEntries fuel p d).1.supply bytes eos, (dhtEntries fuel p d).2) := by
  induction fuel generalizing p d with
  | zero => rfl
  | succ fuel ih =>
    unfold dhtEntries
    split
    · rfl
    · dsimp only
      split
      · rfl
      · split
        · rfl
        · split
          · rfl
          · split
            · rfl
            · rw [setTable_supply, ih]

theorem scanEntries_supply (d : Decoder) (bytes : List Byte) (eos : Bool) (n : Nat) (seen : List Nat) (p : List Byte) :
    scanEntries (d.supply bytes eos) n seen p = scanEntries d n seen p := by
  induction n generalizing seen p with
  | zero => rfl
  | succ n ih => simp only [scanEntries, Decoder.supply_comps, Decoder.supply_dcTables, Decoder.supply_acTables, ih]

theorem checkScan_supply (d : Decoder) (bytes : List Byte) (eos : Bool) (p : List Byte) : checkScan (d.supply bytes eos) p = checkScan d p := by
  simp only [checkScan, Decoder.supply_framePresent, Decoder.supply_scanPresent, Decoder.supply_mode, Decoder.supply_nf, scanEntries_supply]

theorem dhtBody_tracks {s : State} (running : s.host.running = true) (len : Nat) (p : List Byte) :
    Tracks x (dhtBody s len p) (dhtBody (s.extend x) len p) := by
  refine tracks_ite (fun _ => tracks_raise running) fun _ => ?_
  simp only [State.extend_dec, dhtEntries_supply]
  cases (dhtEntries p.length p s.dec).2 with
  | some e => exact tracks_raise (s := s.withDec _) running
  | none => exact tracks_next (t := segRetire len .marker (s.withDec _)) running

theorem sofBody_tracks {s : State} (running : s.host.running = true) (mode : Mode) (len : Nat) (p : List Byte) :
    Tracks x (sofBody mode s len p) (sofBody mode (s.extend x) len p) := by
  have check : checkFrame (s.extend x).cfg (s.extend x).dec p = checkFrame s.cfg s.dec p := rfl
  unfold sofBody
  rw [check]
  cases checkFrame s.cfg s.dec p with
  | error e => exact tracks_raise running
  | ok cs => exact tracks_next (t := segRetire len .marker (s.withDec (commitFrame s.dec mode p cs))) running

theorem sosBody_tracks {s : State} (running : s.host.running = true) (len : Nat) (p : List Byte) :
    Tracks x (sosBody s len p) (sosBody (s.extend x) len p) := by
  unfold sosBody
  rw [State.extend_dec, checkScan_supply]
  cases checkScan s.dec p with
  | error e => exact tracks_raise running
  | ok es => exact tracks_next (t := segRetire len .scan (s.withDec (commitScan s.dec es))) running

theorem app0Body_tracks {s : State} (running : s.host.running = true) (len : Nat) (p : List Byte) :
    Tracks x (app0Body s len p) (app0Body (s.extend x) len p) := by
  refine tracks_ite (fun _ => ?_) fun _ => tracks_next (t := segRetire len .marker s) running
  cases jfifFields p with
  | none => exact tracks_raise running
  | some f => exact tracks_next (t := segRetire len .marker (s.withDec _)) running

/-- A marker with a handler: its segment is read below `D.avail`, its marker step reads nothing more. -/
theorem exec_handler_follows {s : State} (running : s.host.running = true) (wait : MayHold x s) {i : Instr} {g : Seg}
    (h : handlerOf i = some g) : Follows x s (exec i s) (exec i (s.extend x)) := by
  have run : ∀ {g : Seg} {body body' : Nat → List Byte → Host.Outcome State Fault Refusal} {marker : State}, marker.host.running = true →
      (∀ len p, Tracks x (body len p) (body' len p)) →
      Follows x s (inHandler g s (withSegment s body) (.next marker)) (inHandler g (s.extend x) (withSegment (s.extend x) body')
        (.next (marker.extend x))) :=
    fun marker ok => follows_ite (fun _ => withSegment_follows running wait ok) fun _ => (tracks_next marker).follows
  have select : ∀ g, ((s.consume 2).goto g).host.running = true := fun _ => running
  have selectSof : ∀ code, (((s.consume 2).withDec { (s.consume 2).dec with sofCode := code }).goto .sof).host.running = true := fun _ => running
  unfold handlerOf at h
  split at h
  · exact run (selectSof _) (sofBody_tracks running .baseline)
  · exact run (selectSof _) (sofBody_tracks running .extended)
  · exact run (selectSof _) (sofBody_tracks running .progressive)
  · exact run (selectSof _) (sofBody_tracks running .lossless)
  · exact run (select _) (dhtBody_tracks running)
  · exact run (select _) (sosBody_tracks running)
  · exact run (select _) (dqtBody_tracks running)
  · exact run (select _) (app0Body_tracks running)
  · exact run (select _) fun len p => tracks_next (t := segRetire len .marker (s.withDec { s.dec with comment := some p })) running
  · exact run (select _) fun _ _ => tracks_raise running
  · exact run (select _) fun _ _ => tracks_raise running
  · exact run (select _) fun _ _ => tracks_raise running
  · exact run (select _) fun _ _ => tracks_raise running
  · cases h

theorem tracks_signal {s : State} {e : Completion} (running : s.host.running = true) :
    Tracks x (.next (signalCompletion e s)) (.next (signalCompletion e (s.extend x))) := by
  rw [signalCompletion_eq, signalCompletion_eq]
  exact tracks_next running

theorem execEoi_tracks {s : State} (running : s.host.running = true) : Tracks x (execEoi s) (execEoi (s.extend x)) := by
  refine tracks_ite (fun _ => ?_) fun _ => tracks_raise (s := s.consume 2) running
  have image : ((s.extend x).consume 2).dec.img = (s.consume 2).dec.img := rfl
  rw [image]
  cases (s.consume 2).dec.img with
  | none => exact ends_fault _ _
  | some img => exact tracks_signal (s := (s.consume 2).withDec _) running

theorem exec_follows {s : State} (running : s.host.running = true) (wait : MayHold x s) (i : Instr) :
    Follows x s (exec i s) (exec i (s.extend x)) := by
  cases handler : handlerOf i with
  | some g => exact exec_handler_follows running wait handler
  | none =>
    by_cases marker : i.kind = .marker
    · refine Tracks.follows ?_
      rcases exec_of_dispatchedMarker marker handler with rfl | rfl | ⟨e, he⟩
      · exact tracks_next (t := (s.consume 2).goto .marker) running
      · exact execEoi_tracks running
      · rw [he, he]
        exact tracks_raise (s := s.consume 2) running
    · exact (exec_symbol_tracks marker running).follows

/-! ### The step -/

theorem markerUnit_follows {s : State} (running : s.host.running = true) (wait : MayHold x s) :
    Follows x s (markerUnit s) (markerUnit (s.extend x)) := by
  by_cases short : s.dec.avail < s.dec.pos + 2
  · rw [markerUnit_hold short]
    exact needMore_follows running wait fun silent => markerUnit_hold (by rw [silent.extend_dec]; exact short)
  · have short' : ¬(s.extend x).dec.avail < (s.extend x).dec.pos + 2 := fun h => short ((Nat.le_add_right _ _).trans_lt h)
    cases read0 : Memory.read s.dec.input s.dec.pos with
    | none =>
      simp only [markerUnit, if_neg short, read0]
      exact ends_fault _ _
    | some b0 =>
      cases read1 : Memory.read s.dec.input (s.dec.pos + 1) with
      | none =>
        simp only [markerUnit, if_neg short, read0, read1]
        exact ends_fault _ _
      | some c =>
        have read0' : Memory.read (s.extend x).dec.input (s.extend x).dec.pos = some b0 := read_supply (a := s.dec.pos) (by omega) read0
        have read1' : Memory.read (s.extend x).dec.input ((s.extend x).dec.pos + 1) = some c :=
          read_supply (a := s.dec.pos + 1) (by omega) read1
        simp only [markerUnit, if_neg short, if_neg short', read0, read1, read0', read1']
        cases decodeMarker b0 c with
        | ok i => exact exec_follows running wait i
        | error e => exact Tracks.follows (tracks_raise running)

theorem unitOfWork_follows {s : State} (running : s.host.running = true) (wait : MayHold x s) (live : s.dec.seg.final = false) :
    Follows x s (unitOfWork s) (unitOfWork (s.extend x)) := by
  have run := exec_follows running wait
  cases seg : s.dec.seg with
  | marker =>
    rw [unitOfWork_marker seg, unitOfWork_marker (s := s.extend x) seg]
    exact markerUnit_follows running wait
  | scan =>
    rw [unitOfWork_scan seg, unitOfWork_scan (s := s.extend x) seg]
    exact scanUnit_follows running wait
  | sof =>
    simp only [unitOfWork, State.extend_dec, Decoder.supply_seg, Decoder.supply_sofCode, seg]
    cases sofInstr s.dec.sofCode with
    | none => exact ends_fault _ _
    | some i => exact run i
  | dqt => simpa only [unitOfWork, State.extend_dec, Decoder.supply_seg, seg] using run .dqt
  | dnl => simpa only [unitOfWork, State.extend_dec, Decoder.supply_seg, seg] using run .dnl
  | dri => simpa only [unitOfWork, State.extend_dec, Decoder.supply_seg, seg] using run .dri
  | exp => simpa only [unitOfWork, State.extend_dec, Decoder.supply_seg, seg] using run .exp
  | dht => simpa only [unitOfWork, State.extend_dec, Decoder.supply_seg, seg] using run .dht
  | dac => simpa only [unitOfWork, State.extend_dec, Decoder.supply_seg, seg] using run .dac
  | sos => simpa only [unitOfWork, State.extend_dec, Decoder.supply_seg, seg] using run .sos
  | app0 => simpa only [unitOfWork, State.extend_dec, Decoder.supply_seg, seg] using run .app0
  | com => simpa only [unitOfWork, State.extend_dec, Decoder.supply_seg, seg] using run .com
  | done => simp [seg, Seg.final] at live
  | error => simp [seg, Seg.final] at live

theorem step_of_final {s : State} (running : s.host.running = true) (final : s.dec.seg.final = true) : step s = .next (feedReturn s) := by
  simp [step, runTurn, running, final]

theorem step_of_cancel {s : State} (running : s.host.running = true) (live : s.dec.seg.final = false) (cancel : s.dec.cancel = true) :
    step s = raise .e39 s := by
  simp [step, runTurn, running, live, cancel]

/-- A turn of the running Feed with the extra added. -/
theorem step_follows {s : State} (running : s.host.running = true) (wait : MayHold x s) : Follows x s (step s) (step (s.extend x)) := by
  cases final : s.dec.seg.final with
  | true =>
    rw [step_of_final running final, step_of_final (s := s.extend x) running final]
    exact (ends_next _ _).2 (.inr ⟨rfl, fun _ => rfl⟩)
  | false =>
    cases cancel : s.dec.cancel with
    | true =>
      rw [step_of_cancel running final cancel, step_of_cancel (s := s.extend x) running final cancel]
      exact Tracks.follows (tracks_raise running)
    | false =>
      rw [step_eq_unitOfWork running final cancel, step_eq_unitOfWork (s := s.extend x) running final cancel]
      exact unitOfWork_follows running wait final

end

/-- Settles O55: the step of a Feed that still runs tracks itself with the bytes added. -/
theorem moreInputChangesNothing : Obligations.MoreInputChangesNothing := by
  intro s t bytes running h going eos
  rcases step_follows (x := .input bytes false) running (.inl eos) t h with ⟨-, more⟩ | ⟨rfl, -⟩
  · exact more
  · cases going

end Sys2Proof.Machine
end

section
/-! SUPPORT. A running Feed up to its return (46_host_interface R187), and a stream fed in two pieces (20_memory R68, R194). -/

namespace Sys2Proof.Machine

/-! ### The turns of a Feed -/

/-- A turn after which the Feed still runs. -/
structure Turn (a b : State) : Prop where
  running : a.host.running = true
  step : step a = .next b
  going : b.host.running = true

/-- The Feed's turns from one state to another. -/
abbrev Turns : State → State → Prop := Relation.ReflTransGen Turn

/-- The next turn returns to the host. -/
structure Returns (a : State) : Prop where
  running : a.host.running = true
  step : step a = .next (feedReturn a)

theorem turn_unique : Relator.RightUnique Turn := fun _ _ _ h h' => Host.Outcome.next.inj (h.step.symm.trans h'.step)

theorem Returns.turns_eq {a b : State} (h : Returns a) (turns : Turns a b) : b = a := by
  rcases turns.cases_head with rfl | ⟨c, turn, -⟩
  · rfl
  · have going := turn.going
    rw [← Host.Outcome.next.inj (h.step.symm.trans turn.step)] at going
    cases going

/-- A Feed's turns lead to one return. -/
theorem turns_to_return {a b w : State} (turns : Turns a b) (toReturn : Turns a w) (returns : Returns w) : Turns b w := by
  rcases turns.total_of_right_unique turn_unique toReturn with h | h
  · exact h
  · exact returns.turns_eq h ▸ .refl

/-- A turn keeps the pending operations and the end of stream. -/
theorem step_running_keeps {s : State} (running : s.host.running = true) :
    Ends (fun t => t.host.pending = s.host.pending ∧ t.dec.eos = s.dec.eos) (step s) := by
  have raised : ∀ e, (errorEntry e s).host.pending = s.host.pending ∧ (errorEntry e s).dec.eos = s.dec.eos := fun e => by
    rw [errorEntry_eq]
    exact ⟨rfl, rfl⟩
  refine ends_step_running running (fun _ => ⟨rfl, rfl⟩) (fun _ => raised _) fun live _ =>
    ends_unitOfWork live (fun _ => ends_needMore ⟨rfl, rfl⟩ (raised _)) (fun _ => raised _) (fun i _ t h => ?_)
      fun _ => (scanUnit_keeps s).mono fun t h => ⟨h.pending, ?_⟩
  · obtain ⟨-, -, pending, -, -, eos, -⟩ := instructionsWriteOnlyTheirRegisters i s t h
    exact ⟨pending, eos⟩
  · have frame := congrArg Decoder.eos h.frame
    exact frame

/-- With nothing pending, a state without a running Feed stays as it is. -/
theorem run_idle {s : State} (idle : s.host.running = false) (pending : s.host.pending = []) (n : Nat) :
    Host.Core.run Sys2Proof.core n s = .next s := by
  have step : step s = .next s := by simp [Machine.step, idle, pending]
  induction n with
  | zero => rfl
  | succ n ih => simpa [Host.Core.run, core, step] using ih

/-- A run of a Feed that has returned: its turns, then the return. -/
theorem run_returns {n : Nat} {a t : State} (run : Host.Core.run Sys2Proof.core n a = .next t) (running : a.host.running = true)
    (pending : a.host.pending = []) (returned : t.host.running = false) : ∃ u, Turns a u ∧ Returns u ∧ t = feedReturn u := by
  induction n generalizing a with
  | zero =>
    cases run
    cases running.symm.trans returned
  | succ n ih =>
    cases step : step a with
    | fault f => simp [Host.Core.run, core, step] at run
    | refused r => simp [Host.Core.run, core, step] at run
    | next b =>
      have rest : Host.Core.run Sys2Proof.core n b = .next t := by simpa [Host.Core.run, core, step] using run
      obtain ⟨pending', -⟩ := step_running_keeps running b step
      rw [pending] at pending'
      rcases step_follows (x := .input [] false) running (.inr ⟨rfl, rfl⟩) b step with ⟨going, -⟩ | ⟨rfl, -⟩
      · obtain ⟨u, turns, returns, eq⟩ := ih rest going pending'
        exact ⟨u, .head ⟨running, step, going⟩ turns, returns, eq⟩
      · exact ⟨a, .refl, ⟨running, step⟩, Host.Outcome.next.inj (rest.symm.trans (run_idle rfl pending' n))⟩

/-! ### The same turns with more input -/

theorem turns_keep {a u : State} (turns : Turns a u) : u.host.pending = a.host.pending ∧ u.dec.eos = a.dec.eos := by
  induction turns with
  | refl => exact ⟨rfl, rfl⟩
  | tail _ turn ih =>
    obtain ⟨pending, eos⟩ := step_running_keeps turn.running _ turn.step
    exact ⟨pending.trans ih.1, eos.trans ih.2⟩

theorem turns_extend {a u : State} {x : Extra} (turns : Turns a u) (wait : MayHold x a) : Turns (a.extend x) (u.extend x) := by
  induction turns with
  | refl => exact .refl
  | @tail b c turns turn ih =>
    have wait' : MayHold x b := wait.imp_left fun eos => (turns_keep turns).2.trans eos
    rcases step_follows turn.running wait' c turn.step with ⟨going, step⟩ | ⟨rfl, -⟩
    · exact ih.tail ⟨turn.running, step, going⟩
    · cases turn.going

theorem Returns.extend {u : State} {x : Extra} (returns : Returns u) (silent : x.Silent) : Returns (u.extend x) := by
  rcases step_follows returns.running (.inr silent) _ returns.step with ⟨going, -⟩ | ⟨-, step⟩
  · cases going
  · exact ⟨returns.running, step silent⟩

theorem writeBytes_append (m : Memory) (a : Nat) (vs ws : List Byte) :
    Memory.writeBytes m a (vs ++ ws) = Memory.writeBytes (Memory.writeBytes m a vs) (a + vs.length) ws := by
  induction vs generalizing m a with
  | nil => rfl
  | cons v vs ih =>
    simp only [List.cons_append, Memory.writeBytes, ih, List.length_cons]
    rw [Nat.add_assoc, Nat.add_comm 1]

theorem supply_append (d : Decoder) (b1 b2 : List Byte) (eos : Bool) :
    d.supply (b1 ++ b2) eos = (d.supply b1 false).supply b2 eos := by
  simp [Decoder.supply, writeBytes_append, Nat.add_assoc]

/-- The second piece fed after a return that waits: the turn that held goes on with the second piece, one reply more. -/
theorem hostFeed_after_return {u : State} (returns : Returns u) (live : u.dec.seg.final = false) (waiting : u.dec.eos = false)
    (bytes : List Byte) (eos : Bool) :
    hostFeed bytes eos (feedReturn u) = (u.extend (.input bytes eos)).extend (.reply (.feed (feedResult u.dec))) := by
  rw [hostFeed_accepted (s := feedReturn u) eos live (.inl waiting)]
  simp only [State.extend, Extra.input, Extra.reply, Decoder.supply_nothing, feedReturn, returns.running, id]

/-- Settles O56: fed at once, the decoder takes the turns of the first piece with the second supplied already; there it returns, or goes on
as the second Feed does. -/
theorem chunksGiveTheSameResult : Obligations.ChunksGiveTheSameResult := by
  intro s whole first second b1 b2 eos n n1 n2 _ idle live noEos runWhole returnedWhole runFirst returnedFirst runSecond returnedSecond pending
  rw [hostFeed_accepted eos live (.inl noEos), supply_append] at runWhole
  rw [hostFeed_accepted false live (.inl noEos)] at runFirst
  obtain ⟨w, turnsWhole, returnsWhole, rfl⟩ := run_returns runWhole rfl pending returnedWhole
  obtain ⟨u, turnsFirst, returnsFirst, rfl⟩ := run_returns runFirst rfl pending returnedFirst
  have more := turns_extend (x := .input b2 eos) turnsFirst (.inl (by simp [noEos]))
  have rest : Turns (u.extend (.input b2 eos)) w := turns_to_return more turnsWhole returnsWhole
  obtain ⟨pending', waiting⟩ := turns_keep turnsFirst
  replace pending' : u.host.pending = [] := pending'.trans pending
  replace waiting : u.dec.eos = false := waiting.trans (by simp [noEos])
  cases final : u.dec.seg.final with
  | true =>
    have returns : Returns (u.extend (.input b2 eos)) := ⟨returnsFirst.running, step_of_final returnsFirst.running final⟩
    rw [hostFeed_refused (s := feedReturn u) eos (.inl final)] at runSecond
    obtain rfl := Host.Outcome.next.inj (runSecond.symm.trans (run_idle (s := Machine.reply _ (feedReturn u)) rfl pending' n2))
    obtain rfl := returns.turns_eq rest
    exact ⟨rfl, rfl, rfl, rfl, rfl, rfl⟩
  | false =>
    rw [hostFeed_after_return returnsFirst final waiting] at runSecond
    obtain ⟨v, turnsSecond, returnsSecond, rfl⟩ := run_returns runSecond returnsFirst.running pending' returnedSecond
    have silent := Extra.reply_silent (.feed (feedResult u.dec))
    obtain rfl := (returnsWhole.extend silent).turns_eq (turns_to_return (turns_extend rest (.inr silent)) turnsSecond returnsSecond)
    have same := silent.extend_dec w
    dsimp only [feedReturn]
    rw [same]
    exact ⟨rfl, rfl, rfl, rfl, rfl, rfl⟩

end Sys2Proof.Machine
end

section
/-! SUPPORT. The units of the stream as words (30_encoding R69, R71, R83, R84): decoding and encoding through the map of each kind's code
bytes, which is a bijection onto the well-formed instructions of the kind. -/

namespace Sys2Proof.Machine

/-- The bytes of a unit whose code byte or symbol value is `c` (R69). -/
def unitBytes : UnitKind → Byte → List Byte
  | .marker, c => [0xFF, c]
  | .dcSymbol, c => [c]
  | .acSymbol, c => [c]

theorem encode_eq_unitBytes (i : Instr) : encode i = unitBytes i.kind i.codeByte := by
  unfold encode
  cases i.kind <;> rfl

/-- The decoder reads exactly the units of its kind, each as its code byte's instruction. -/
theorem decode_ok_iff {k : UnitKind} {bs rest : List Byte} {i : Instr} :
    decode k bs = .ok (i, rest) ↔ ∃ c, bs = unitBytes k c ++ rest ∧ Laws.RoundTrip.read k c = i := by
  cases k with
  | marker =>
    match bs with
    | [] => simp [decode, unitBytes]
    | [_] => simp [decode, unitBytes]
    | b0 :: c :: bs =>
      by_cases first : b0 = 0xFF
      · subst first
        simp [decode, decodeMarker, unitBytes, Laws.RoundTrip.read, and_comm]
      · have rejected : decodeMarker b0 c = .error (.notMarkerByte b0) := if_neg first
        simp [decode, rejected, unitBytes, show ¬b0 = 255#8 from first]
  | dcSymbol => cases bs <;> simp [decode, unitBytes, Laws.RoundTrip.read, and_comm]
  | acSymbol => cases bs <;> simp [decode, unitBytes, Laws.RoundTrip.read, and_comm]

/-- The map of each kind is inverse to the code byte: the rows with an operand by their lemmas, every other row by its table entry. -/
theorem read_codeByte (i : Instr) : Laws.RoundTrip.Statement i := by
  cases i with
  | reserved02_03 code => exact Laws.RoundTrip.reserved02_03 code
  | reserved04_07 code => exact Laws.RoundTrip.reserved04_07 code
  | reserved08_0F code => exact Laws.RoundTrip.reserved08_0F code
  | reserved10_1F code => exact Laws.RoundTrip.reserved10_1F code
  | reserved20_3F code => exact Laws.RoundTrip.reserved20_3F code
  | reserved40_7F code => exact Laws.RoundTrip.reserved40_7F code
  | reserved80_BF code => exact Laws.RoundTrip.reserved80_BF code
  | rst n => exact Laws.RoundTrip.rst n
  | dcIllegal0C_0F value => exact Laws.RoundTrip.dcIllegal0C_0F value
  | dcIllegal10_1F value => exact Laws.RoundTrip.dcIllegal10_1F value
  | dcIllegal20_3F value => exact Laws.RoundTrip.dcIllegal20_3F value
  | dcIllegal40_7F value => exact Laws.RoundTrip.dcIllegal40_7F value
  | dcIllegal80_FF value => exact Laws.RoundTrip.dcIllegal80_FF value
  | acRunSize1 r => exact Laws.RoundTrip.acRunSize1 r
  | acRunSize2 r => exact Laws.RoundTrip.acRunSize2 r
  | acRunSize3 r => exact Laws.RoundTrip.acRunSize3 r
  | acRunSize4 r => exact Laws.RoundTrip.acRunSize4 r
  | acRunSize5 r => exact Laws.RoundTrip.acRunSize5 r
  | acRunSize6 r => exact Laws.RoundTrip.acRunSize6 r
  | acRunSize7 r => exact Laws.RoundTrip.acRunSize7 r
  | acRunSize8 r => exact Laws.RoundTrip.acRunSize8 r
  | acRunSize9 r => exact Laws.RoundTrip.acRunSize9 r
  | acRunSize10 r => exact Laws.RoundTrip.acRunSize10 r
  | acIllegalSize11 r => exact Laws.RoundTrip.acIllegalSize11 r
  | acIllegalSize12_15 r sz => exact Laws.RoundTrip.acIllegalSize12_15 r sz
  | _ => exact fun _ => rfl

/-- Every code byte of a kind is read as a well-formed instruction of that kind with that code byte: the 256 values of each map. -/
theorem read_sound (k : UnitKind) (c : Byte) : (Laws.RoundTrip.read k c).wellFormed = true ∧ (Laws.RoundTrip.read k c).kind = k ∧ (Laws.RoundTrip.read k c).codeByte = c := by
  have marker : ∀ c : Byte, (markerOf c).wellFormed = true ∧ (markerOf c).kind = .marker ∧ (markerOf c).codeByte = c := by decide +kernel
  have dc : ∀ c : Byte, (dcSymbolOf c).wellFormed = true ∧ (dcSymbolOf c).codeByte = c := by decide +kernel
  have ac : ∀ c : Byte, (acSymbolOf c).wellFormed = true ∧ (acSymbolOf c).codeByte = c := by decide +kernel
  cases k with
  | marker => exact marker c
  | dcSymbol => exact ⟨(dc c).left, dcSymbolOf_kind c, (dc c).right⟩
  | acSymbol => exact ⟨(ac c).left, acSymbolOf_kind c, (ac c).right⟩

/-- Settles O2: the unit's code byte is read as the instruction. -/
theorem decodeOfEncode : Obligations.DecodeOfEncode := by
  intro i rest wellFormed
  exact decode_ok_iff.2 ⟨i.codeByte, by rw [encode_eq_unitBytes], read_codeByte i wellFormed⟩

/-- Settles O3: the unit read is that of some code byte, whose instruction has that kind and that code byte. -/
theorem encodeOfDecode : Obligations.EncodeOfDecode := by
  intro k bs rest i h
  obtain ⟨c, bytes, rfl⟩ := decode_ok_iff.1 h
  obtain ⟨wellFormed, kind, codeByte⟩ := read_sound k c
  exact ⟨wellFormed, kind, by rw [encode_eq_unitBytes, kind, codeByte, bytes]⟩

/-- Settles O1: each word is that of a code byte, whose row of the tables is the instruction; `D8` is no marker's first byte (R72). -/
theorem wordsDecodeAsTables : Obligations.WordsDecodeAsTables :=
  ⟨decode_ok_iff.2 ⟨0xD8, rfl, rfl⟩, decode_ok_iff.2 ⟨0xC2, rfl, rfl⟩, decode_ok_iff.2 ⟨0xD5, rfl, rfl⟩, decode_ok_iff.2 ⟨0xBF, rfl, rfl⟩, rfl,
    decode_ok_iff.2 ⟨0x0B, rfl, rfl⟩, decode_ok_iff.2 ⟨0x0C, rfl, rfl⟩, decode_ok_iff.2 ⟨0x00, rfl, rfl⟩, decode_ok_iff.2 ⟨0xF0, rfl, rfl⟩,
    decode_ok_iff.2 ⟨0xE0, rfl, rfl⟩, decode_ok_iff.2 ⟨0x3A, rfl, rfl⟩, decode_ok_iff.2 ⟨0x7F, rfl, rfl⟩⟩

/-- Settles O10: the marker step of a running Feed decodes the two bytes, and the decoder rejects the first (30_encoding R72). -/
theorem firstByteMustBeFF : Obligations.FirstByteMustBeFF := by
  intro s b0 c running cancel marker supplied first second notFF
  have rejected : decodeMarker b0 c = .error (.notMarkerByte b0) := if_neg notFF
  rw [step_eq_unitOfWork running (by rw [marker]; rfl) cancel, unitOfWork_marker marker, markerUnit, if_neg (by omega)]
  simp only [first, second, rejected]
  rfl

end Sys2Proof.Machine
end

section
/-! SUPPORT. The table segments (40_segments R98, R101, R107 to R110): what a handler does with a whole segment, the zig-zag order of a table's
entries (44_transform R155), and what a list of entries leaves in the tables. -/

namespace Sys2Proof.Machine

/-- In its own state, with its whole segment supplied, a handler is its body on the payload. -/
theorem inHandler_of_segment {g : Seg} {s : State} {p : List Byte} (seg : s.dec.seg = g) (at_pos : segmentAt s.dec p)
    (body : Nat → List Byte → Host.Outcome State Fault Refusal) (marker : Host.Outcome State Fault Refusal) :
    inHandler g s (withSegment s body) marker = body (p.length + 2) p :=
  (inHandler_of_seg seg _ _).trans (withSegment_ok at_pos body)

/-- Settles O24: the bodies of these four handlers raise. -/
theorem refusedSegmentsRaise : Obligations.RefusedSegmentsRaise := fun _ _ at_pos =>
  ⟨fun seg => inHandler_of_segment seg at_pos _ _, fun seg => inHandler_of_segment seg at_pos _ _,
    fun seg => inHandler_of_segment seg at_pos _ _, fun seg => inHandler_of_segment seg at_pos _ _⟩

/-! ### Zig-zag order -/

theorem zigzagPos_inj : ∀ m n : Fin 64, zigzagPos m.val = zigzagPos n.val → m = n := by decide +kernel

/-- An entry written at a zig-zag index is read at that index only. -/
theorem read_set_zigzag {α : Type} (v : Vector α 64) (x : α) {k : Nat} (hk : k < 64) (n : Fin 64) :
    (v.set (zigzagPos k).val x (zigzagPos k).isLt)[zigzagPos n.val] = if n.val = k then x else v[zigzagPos n.val] := by
  have same : (zigzagPos k).val = (zigzagPos n.val).val ↔ n.val = k :=
    ⟨fun h => congrArg Fin.val (zigzagPos_inj n ⟨k, hk⟩ (Fin.ext h.symm)), fun h => by rw [h]⟩
  rw [Fin.getElem_fin, Vector.getElem_set]
  simp only [same]
  rfl

/-- `n` zeros from zig-zag index `k` on (42_entropy R138, R139). -/
theorem read_zeroFill (scratch : Vector Int 64) {k m : Nat} (h : k + m ≤ 64) (n : Fin 64) :
    (zeroFill scratch k m)[zigzagPos n.val] = if k ≤ n.val ∧ n.val < k + m then 0 else scratch[zigzagPos n.val] := by
  induction m generalizing scratch k with
  | zero => simp [zeroFill, show ¬(k ≤ n.val ∧ n.val < k) by omega]
  | succ m ih =>
    rw [zeroFill, ih _ (by omega), read_set_zigzag _ _ (by omega)]
    split_ifs <;> omega

/-- Bytes written from zig-zag index `k` on (40_segments R98). -/
theorem read_loadZigzag (q : Vector Byte 64) {k : Nat} {bs : List Byte} (h : k + bs.length ≤ 64) (n : Fin 64) :
    (loadZigzag q k bs)[zigzagPos n.val] =
      if k ≤ n.val ∧ n.val < k + bs.length then bs.getD (n.val - k) 0 else q[zigzagPos n.val] := by
  induction bs generalizing q k with
  | nil => simp [loadZigzag, show ¬(k ≤ n.val ∧ n.val < k) by omega]
  | cons b bs ih =>
    rw [List.length_cons] at h ⊢
    rw [loadZigzag, ih _ (by omega), read_set_zigzag _ _ (by omega)]
    by_cases later : k + 1 ≤ n.val
    · have range : k + 1 ≤ n.val ∧ n.val < k + 1 + bs.length ↔ k ≤ n.val ∧ n.val < k + (bs.length + 1) := by omega
      rw [show n.val - k = n.val - (k + 1) + 1 by omega, List.getD_cons_succ, if_neg (show n.val ≠ k by omega)]
      simp only [range]
    · by_cases first : n.val = k
      · simp [first]
      · simp [first, show ¬(k ≤ n.val) by omega, later]

/-! ### The last entry of a destination stands -/

section LastWrite

variable {σ ε τ : Type} {write : σ → ε → σ} {get : σ → τ} {hits : ε → Prop}

theorem foldl_untouched (miss : ∀ s e, ¬hits e → get (write s e) = get s) (es : List ε) (s : σ) (none : ∀ e ∈ es, ¬hits e) :
    get (es.foldl write s) = get s := by
  induction es generalizing s with
  | nil => rfl
  | cons e es ih =>
    obtain ⟨head, tail⟩ := List.forall_mem_cons.1 none
    exact (ih _ tail).trans (miss s e head)

/-- After entries written one after another a destination holds what the last entry that hits it wrote. -/
theorem foldl_lastWrite {wrote : ε → τ → Prop} (miss : ∀ s e, ¬hits e → get (write s e) = get s)
    (hit : ∀ s e, hits e → wrote e (get (write s e))) (es : List ε) (s : σ) {i : Nat} {e : ε} (at_i : es[i]? = some e) (he : hits e)
    (last : ∀ (i' : Nat) (e' : ε), i < i' → es[i']? = some e' → ¬hits e') : wrote e (get (es.foldl write s)) := by
  induction es generalizing s i with
  | nil => cases at_i
  | cons e₀ es ih =>
    cases i with
    | zero =>
      obtain rfl : e₀ = e := Option.some.inj at_i
      have later : ∀ e' ∈ es, ¬hits e' := fun e' mem => by
        obtain ⟨i', at_i'⟩ := List.mem_iff_getElem?.1 mem
        exact last (i' + 1) e' (Nat.succ_pos i') at_i'
      rw [List.foldl_cons, foldl_untouched miss es _ later]
      exact hit s e₀ he
    | succ i => exact ih _ at_i fun i' e' hi => last (i' + 1) e' (Nat.succ_lt_succ hi)

end LastWrite

/-! ### Bytes made of two fields -/

/-- The nibbles of a byte given as `16 * high + low` (00_scope R8). -/
theorem nibbles_ofNat {h l : Nat} (hh : h < 16) (hl : l < 16) :
    (hiNibble (BitVec.ofNat 8 (16 * h + l))).toNat = h ∧ (loNibble (BitVec.ofNat 8 (16 * h + l))).toNat = l := by
  simp only [hiNibble, loNibble, BitVec.extractLsb'_toNat, BitVec.toNat_ofNat, Nat.shiftRight_eq_div_pow]
  omega

/-- A payload has at least as many bytes as entries, since every entry begins with a byte. -/
theorem length_le_entries {ε : Type} (first : ε → Byte) (others : ε → List Byte) (es : List ε) :
    es.length ≤ (es.flatMap fun e => first e :: others e).length := by
  induction es with
  | nil => exact Nat.le_refl _
  | cons e es ih =>
    rw [List.flatMap_cons, List.length_append, List.length_cons, List.length_cons]
    omega

/-! ### DQT -/

/-- One DQT entry written (40_segments R98). -/
def loadQuant (qt : Vector QTable 4) (e : Fin 4 × Vector Byte 64) : Vector QTable 4 :=
  qt.set e.1.val { defined := true, q := loadZigzag qt[e.1].q 0 e.2.toList } e.1.isLt

/-- Whole, legal entries are written one after another; then the rest of the payload is read. -/
theorem dqtEntries_load (fuel : Nat) (es : List (Fin 4 × Vector Byte 64)) (r : List Byte) (qt : Vector QTable 4) :
    dqtEntries (es.length + fuel) (quantPayload es ++ r) qt = dqtEntries fuel r (es.foldl loadQuant qt) := by
  induction es generalizing qt with
  | nil => rw [List.length_nil, Nat.zero_add]; rfl
  | cons e es ih =>
    have byte : ∀ t : Fin 4, hiNibble (BitVec.ofNat 8 t.val) = 0 ∧ (loNibble (BitVec.ofNat 8 t.val)).toNat = t.val := by decide
    obtain ⟨high, low⟩ := byte e.1
    have payload : quantPayload (e :: es) ++ r = BitVec.ofNat 8 e.1.val :: (e.2.toList ++ (quantPayload es ++ r)) := by simp [quantPayload]
    have length : e.2.toList.length = 64 := Vector.length_toList
    have take : (e.2.toList ++ (quantPayload es ++ r)).take 64 = e.2.toList := List.take_left' length
    have drop : (e.2.toList ++ (quantPayload es ++ r)).drop 64 = quantPayload es ++ r := List.drop_left' length
    have whole : ¬(e.2.toList ++ (quantPayload es ++ r)).length < 64 := by rw [List.length_append]; omega
    have dest : Fin.ofNat 4 e.1.val = e.1 := Fin.ofNat_val_eq_self e.1
    rw [List.length_cons, Nat.add_right_comm, payload, dqtEntries, if_neg (by rw [high]; decide), if_neg (by omega), if_neg whole]
    simp only [low, dest, take, drop]
    exact ih (loadQuant qt e)

theorem dqtEntries_nil (fuel : Nat) (qt : Vector QTable 4) : dqtEntries fuel [] qt = (qt, none) := by cases fuel <;> rfl

theorem loadQuant_other {qt : Vector QTable 4} {e : Fin 4 × Vector Byte 64} {t : Fin 4} (h : ¬e.1 = t) : (loadQuant qt e)[t] = qt[t] := by
  rw [loadQuant, Fin.getElem_fin, Vector.getElem_set_ne _ _ fun eq => h (Fin.ext eq)]
  rfl

/-- The bytes of an entry stand in its table in natural order (44_transform R155). -/
theorem loadQuant_same {qt : Vector QTable 4} {e : Fin 4 × Vector Byte 64} {t : Fin 4} (h : e.1 = t) :
    (loadQuant qt e)[t].defined = true ∧ ∀ k : Fin 64, (loadQuant qt e)[t].q[zigzagPos k.val] = e.2[k] := by
  subst h
  have table : (loadQuant qt e)[e.1] = { defined := true, q := loadZigzag qt[e.1].q 0 e.2.toList } := Vector.getElem_set_self _
  rw [table]
  refine ⟨rfl, fun k => ?_⟩
  rw [read_loadZigzag _ (by rw [Vector.length_toList]), if_pos (by rw [Vector.length_toList]; omega)]
  simp

theorem quantLoaded_foldl (qt : Vector QTable 4) (es : List (Fin 4 × Vector Byte 64)) : quantLoaded qt (es.foldl loadQuant qt) es := by
  intro t
  refine ⟨fun i q at_i last => ?_, fun none => ?_⟩
  · refine foldl_lastWrite (get := fun qt : Vector QTable 4 => qt[t]) (hits := fun e => e.1 = t)
      (wrote := fun e table => table.defined = true ∧ ∀ k : Fin 64, table.q[zigzagPos k.val] = e.2[k])
      (fun _ _ => loadQuant_other) (fun _ _ => loadQuant_same) es qt at_i rfl ?_
    rintro i' ⟨_, q'⟩ later at_i' rfl
    exact last i' q' later at_i'
  · refine foldl_untouched (get := fun qt : Vector QTable 4 => qt[t]) (hits := fun e => e.1 = t) (fun _ _ => loadQuant_other) es qt ?_
    rintro ⟨_, q⟩ mem rfl
    exact none q mem

/-- Settles O15: the handler writes the entries one after another. -/
theorem dqtLoadsTables : Obligations.DqtLoadsTables := by
  intro s es seg nonempty at_pos
  refine ⟨es.foldl loadQuant s.dec.qt, quantLoaded_foldl _ _, (inHandler_of_segment seg at_pos _ _).trans ?_⟩
  have length : es.length ≤ (quantPayload es).length := length_le_entries _ _ es
  have entries : dqtEntries (quantPayload es).length (quantPayload es) s.dec.qt = (es.foldl loadQuant s.dec.qt, none) := by
    have load := dqtEntries_load ((quantPayload es).length - es.length) es [] s.dec.qt
    rwa [List.append_nil, Nat.add_sub_cancel' length, dqtEntries_nil] at load
  have notEmpty : (quantPayload es).isEmpty = false := by
    rw [List.isEmpty_eq_false_iff, ← List.length_pos_iff]
    exact Nat.lt_of_lt_of_le (List.length_pos_iff.2 nonempty) length
  simp only [dqtBody, notEmpty, entries]
  rfl

/-! ### DHT -/

/-- One DHT entry written (40_segments R101); an entry whose code space does not fit (E15) is not met here. -/
def loadHuff (d : Decoder) (e : HuffSpec) : Decoder := d.setTable e.cls.val e.dest ((huffBuild e.counts e.symbols).getD HuffTable.reset)

theorem countsOf_append (counts : Vector Byte 16) (bs : List Byte) : countsOf (counts.toList ++ bs) = counts := by
  refine Vector.ext fun l hl => ?_
  rw [countsOf, Vector.getElem_ofFn, byteAt, List.getD_append _ _ _ _ (by rwa [Vector.length_toList]),
    List.getD_eq_getElem _ _ (by rwa [Vector.length_toList])]
  rfl

/-- Whole, legal entries are written one after another; then the rest of the payload is read. -/
theorem dhtEntries_load (fuel : Nat) {es : List HuffSpec} (legal : ∀ e ∈ es, e.ok) (r : List Byte) (d : Decoder) :
    dhtEntries (es.length + fuel) (huffPayload es ++ r) d = dhtEntries fuel r (es.foldl loadHuff d) := by
  induction es generalizing d with
  | nil => rw [List.length_nil, Nat.zero_add]; rfl
  | cons e es ih =>
    obtain ⟨⟨count, fits⟩, legal⟩ := List.forall_mem_cons.1 legal
    obtain ⟨table, built⟩ := Option.isSome_iff_exists.1 fits
    obtain ⟨high, low⟩ := nibbles_ofNat (h := e.cls.val) (l := e.dest.val) (by omega) (by omega)
    have payload : huffPayload (e :: es) ++ r
        = BitVec.ofNat 8 (16 * e.cls.val + e.dest.val) :: (e.counts.toList ++ (e.symbols ++ (huffPayload es ++ r))) := by simp [huffPayload]
    have length : e.counts.toList.length = 16 := Vector.length_toList
    have dropCounts : (e.counts.toList ++ (e.symbols ++ (huffPayload es ++ r))).drop 16 = e.symbols ++ (huffPayload es ++ r) :=
      List.drop_left' length
    have symbols : (e.symbols ++ (huffPayload es ++ r)).take (countTotal e.counts) = e.symbols := List.take_left' count
    have rest : (e.counts.toList ++ (e.symbols ++ (huffPayload es ++ r))).drop (16 + countTotal e.counts) = huffPayload es ++ r := by
      rw [← List.drop_drop, dropCounts, List.drop_left' count]
    have whole : (e.counts.toList ++ (e.symbols ++ (huffPayload es ++ r))).length
        = 16 + countTotal e.counts + (huffPayload es ++ r).length := by rw [List.length_append, List.length_append, length, count, Nat.add_assoc]
    have dest : Fin.ofNat 4 e.dest.val = e.dest := Fin.ofNat_val_eq_self e.dest
    rw [List.length_cons, Nat.add_right_comm, payload, dhtEntries]
    simp only [countsOf_append, high, low]
    rw [if_neg (by omega), if_neg (by simp; omega), if_neg (by omega), dropCounts, symbols, rest, dest]
    simp only [built]
    rw [ih legal, List.foldl_cons, loadHuff, built]
    rfl

theorem dhtEntries_nil (fuel : Nat) (d : Decoder) : dhtEntries fuel [] d = (d, none) := by cases fuel <;> rfl

theorem huffTables_setTable (d : Decoder) (cls c : Fin 2) (dest t : Fin 4) (table : HuffTable) :
    ((d.setTable cls.val dest table).huffTables c)[t] = if cls = c ∧ dest = t then table else (d.huffTables c)[t] := by
  have class_cases : ∀ c : Fin 2, c = 0 ∨ c = 1 := by decide
  rcases class_cases cls with rfl | rfl <;> rcases class_cases c with rfl | rfl <;>
    simp [Decoder.setTable, Decoder.huffTables, Vector.getElem_set, Fin.ext_iff]

theorem huffLoaded_foldl (d : Decoder) {es : List HuffSpec} (legal : ∀ e ∈ es, e.ok) : huffLoaded d (es.foldl loadHuff d) es := by
  intro c t
  have miss : ∀ (d : Decoder) (e : HuffSpec), ¬(e.cls = c ∧ e.dest = t) → ((loadHuff d e).huffTables c)[t] = (d.huffTables c)[t] :=
    fun d e other => by rw [loadHuff, huffTables_setTable, if_neg other]
  refine ⟨fun i e at_i cls dest last => ?_, foldl_untouched (get := fun d : Decoder => (d.huffTables c)[t]) miss es d⟩
  refine foldl_lastWrite (get := fun d : Decoder => (d.huffTables c)[t]) (wrote := fun e table => e.ok → huffBuild e.counts e.symbols = some table)
    miss (fun d e hit ok => ?_) es d at_i ⟨cls, dest⟩ last (legal e (List.mem_of_getElem? at_i))
  obtain ⟨table, built⟩ := Option.isSome_iff_exists.1 ok.2
  rw [loadHuff, huffTables_setTable, if_pos hit, built]
  rfl

theorem foldl_loadHuff_eq (es : List HuffSpec) (d : Decoder) : ∃ dc ac, es.foldl loadHuff d = { d with dcTables := dc, acTables := ac } := by
  induction es generalizing d with
  | nil => exact ⟨_, _, rfl⟩
  | cons e es ih =>
    obtain ⟨dc, ac, eq⟩ := ih (loadHuff d e)
    rw [List.foldl_cons, eq, loadHuff, Decoder.setTable]
    split <;> exact ⟨_, _, rfl⟩

/-- Settles O19: the handler builds and writes the entries one after another. -/
theorem dhtBuildsTables : Obligations.DhtBuildsTables := by
  intro s es seg nonempty legal at_pos
  obtain ⟨dc, ac, loaded⟩ := foldl_loadHuff_eq es s.dec
  refine ⟨dc, ac, loaded ▸ huffLoaded_foldl s.dec legal, (inHandler_of_segment seg at_pos _ _).trans ?_⟩
  have length : es.length ≤ (huffPayload es).length := length_le_entries _ _ es
  have entries : dhtEntries (huffPayload es).length (huffPayload es) s.dec = ({ s.dec with dcTables := dc, acTables := ac }, none) := by
    have load := dhtEntries_load ((huffPayload es).length - es.length) legal [] s.dec
    rwa [List.append_nil, Nat.add_sub_cancel' length, dhtEntries_nil, loaded] at load
  have notEmpty : (huffPayload es).isEmpty = false := by
    rw [List.isEmpty_eq_false_iff, ← List.length_pos_iff]
    exact Nat.lt_of_lt_of_le (List.length_pos_iff.2 nonempty) length
  simp only [dhtBody, notEmpty, entries]
  rfl

end Sys2Proof.Machine
end

section
/-! SUPPORT. Amplitudes (30_encoding R85, R86), and what the resolution of an amplitude writes (42_entropy R137, R139; 44_transform R157). -/

namespace Sys2Proof.Machine

/-! ### Amplitudes -/

/-- The values of bit length `m + 1` (00_scope R14). -/
theorem bitlen_eq_succ {v : Int} {m : Nat} : bitlen v = m + 1 ↔ 2 ^ m ≤ v.natAbs ∧ v.natAbs < 2 ^ (m + 1) := by
  by_cases zero : v = 0
  · simp [bitlen, zero]
  · rw [bitlen, if_neg zero, Nat.add_right_cancel_iff, Nat.log2_eq_iff (Int.natAbs_ne_zero.2 zero)]

theorem amplitudeValue_succ (m a : Nat) : amplitudeValue (m + 1) a = if a < 2 ^ m then (a : Int) - ((2 * 2 ^ m : Nat) : Int) + 1 else a := by
  rw [amplitudeValue, if_neg (Nat.succ_ne_zero m), Nat.add_sub_cancel]
  push_cast
  rw [pow_succ']

theorem amplitudeBits_succ (v : Int) (m : Nat) :
    amplitudeBits v (m + 1) = if 0 ≤ v then v.toNat else (v + ((2 * 2 ^ m : Nat) : Int) - 1).toNat := by
  rw [amplitudeBits]
  push_cast
  rw [pow_succ']

/-- The amplitude bits of a value of bit length `m + 1` fit and decode to the value. -/
theorem amplitudeValue_bits {v : Int} {m : Nat} (h : bitlen v = m + 1) :
    amplitudeBits v (m + 1) < 2 ^ (m + 1) ∧ amplitudeValue (m + 1) (amplitudeBits v (m + 1)) = v := by
  obtain ⟨low, high⟩ := bitlen_eq_succ.1 h
  rw [amplitudeValue_succ, amplitudeBits_succ, Nat.pow_succ']
  rw [Nat.pow_succ'] at high
  generalize 2 ^ m = half at *
  split_ifs <;> omega

/-- An amplitude of `m + 1` bits decodes to a value of that bit length, with that amplitude. -/
theorem amplitudeBits_value {m a : Nat} (h : a < 2 ^ (m + 1)) :
    bitlen (amplitudeValue (m + 1) a) = m + 1 ∧ amplitudeBits (amplitudeValue (m + 1) a) (m + 1) = a := by
  rw [bitlen_eq_succ, amplitudeValue_succ, amplitudeBits_succ, Nat.pow_succ']
  rw [Nat.pow_succ'] at h
  have half_pos : 0 < 2 ^ m := Nat.two_pow_pos m
  generalize 2 ^ m = half at *
  split_ifs <;> omega

/-- Settles O28: zero has no amplitude bits; the other values by their bit length. -/
theorem amplitudesInvert : Obligations.AmplitudesInvert := by
  refine ⟨fun v => ?_, fun m a hm ha => ?_⟩
  · cases length : bitlen v with
    | zero =>
      have zero : v = 0 := by
        by_contra nonzero
        simp [bitlen, nonzero] at length
      subst zero
      decide
    | succ m => exact amplitudeValue_bits length
  · obtain ⟨n, rfl⟩ := Nat.exists_eq_succ_of_ne_zero (Nat.ne_of_gt hm)
    exact amplitudeBits_value ha

theorem amplitudeValue_natAbs_lt {m a : Nat} (h : a < 2 ^ m) : (amplitudeValue m a).natAbs < 2 ^ m := by
  cases m with
  | zero => exact Nat.one_pos
  | succ m => exact (bitlen_eq_succ.1 (amplitudeBits_value h).1).2

theorem inI32_of_natAbs {x : Int} (h : x.natAbs < 2147483648) : inI32 x = true := by
  simp only [inI32, Bool.and_eq_true, decide_eq_true_eq]
  omega

/-- A baseline AC coefficient stays in the range of `i32` after its scaling (44_transform R157). -/
theorem inI32_scaled {v : Int} (h : v.natAbs < 2 ^ 10) (q : Byte) : inI32 (v * (q.toNat : Int)) = true := by
  have product : v.natAbs * q.toNat ≤ 2 ^ 10 * 2 ^ 8 := Nat.mul_le_mul h.le q.isLt.le
  refine inI32_of_natAbs ?_
  rw [Int.natAbs_mul, Int.natAbs_natCast]
  omega

/-! ### AddCoef -/

/-- The scratch buffer with `run` zeros from zig-zag index `k` on and the coefficient `x` after them (42_entropy R139). -/
def placedScratch (scratch : Vector Int 64) (k run : Nat) (x : Int) : Vector Int 64 :=
  (zeroFill scratch k run).set (zigzagPos (k + run)).val x (zigzagPos (k + run)).isLt

theorem read_placedScratch (scratch : Vector Int 64) {k run : Nat} (h : k + run ≤ 63) (x : Int) (n : Fin 64) :
    (placedScratch scratch k run x)[zigzagPos n.val] =
      if k ≤ n.val ∧ n.val < k + run then 0 else if n.val = k + run then x else scratch[zigzagPos n.val] := by
  rw [placedScratch, read_set_zigzag _ _ (by omega), read_zeroFill _ (by omega)]
  split_ifs <;> omega

/-- The value at index `k`, scaled by its table entry (44_transform R157). -/
def scaledCoef (d : Decoder) (c : Component) (k : Nat) (v : Int) : Int := v * ((d.qt[c.tq].q[zigzagPos k]).toNat : Int)

section AddCoef

variable {s : State} {j : Nat} {c : Component} {run : Nat} {v : Int}

theorem addCoef_overrun (h : 63 < s.dec.k + run) : addCoef s j c run v = .next (errorEntry .e31 s) := if_pos h

theorem addCoef_outOfRange (h : s.dec.k + run ≤ 63) (range : inI32 (scaledCoef s.dec c (s.dec.k + run) v) = false) :
    addCoef s j c run v = .next (errorEntry .e35
      (s.withDec (s.dec.withScratch j { c with scratch := zeroFill c.scratch s.dec.k run } (s.dec.k + run)))) :=
  (if_neg (by omega)).trans (if_neg (Bool.eq_false_iff.1 range))

theorem addCoef_written (h : s.dec.k + run ≤ 63) (range : inI32 (scaledCoef s.dec c (s.dec.k + run) v) = true) {c' : Component}
    (hc : c' = { c with scratch := placedScratch c.scratch s.dec.k run (scaledCoef s.dec c (s.dec.k + run) v) }) :
    addCoef s j c run v =
      if s.dec.k + run + 1 = 64 then dataUnitComplete (s.withDec (s.dec.withScratch j c' (s.dec.k + run + 1))) j c'
      else .next (s.withDec (s.dec.withScratch j c' (s.dec.k + run + 1))) := by
  subst hc
  exact (if_neg (by omega)).trans (if_pos range)

/-- Below the 64th coefficient the data unit goes on. -/
theorem addCoef_placed (h : s.dec.k + run < 63) (range : inI32 (scaledCoef s.dec c (s.dec.k + run) v) = true) :
    addCoef s j c run v = .next (s.withDec (s.dec.withScratch j
      { c with scratch := placedScratch c.scratch s.dec.k run (scaledCoef s.dec c (s.dec.k + run) v) } (s.dec.k + run + 1))) :=
  (addCoef_written (by omega) range rfl).trans (if_neg (by omega))

/-- The 64th coefficient completes the data unit. -/
theorem addCoef_last (h : s.dec.k + run = 63) (range : inI32 (scaledCoef s.dec c (s.dec.k + run) v) = true) {c' : Component}
    (hc : c' = { c with scratch := placedScratch c.scratch s.dec.k run (scaledCoef s.dec c (s.dec.k + run) v) }) :
    addCoef s j c run v = dataUnitComplete (s.withDec (s.dec.withScratch j c' 64)) j c' := by
  rw [addCoef_written (by omega) range hc, if_pos (by omega), h]

end AddCoef

/-! ### The resolution of an amplitude -/

section Resolve

variable {s : State} {j : Nat} {c : Component}

/-- With no amplitude bit left to read what a bit completes is the amplitude (46_host_interface R187; log 1). -/
theorem settle_amplitude (seg : s.dec.seg = .scan) (sub : s.dec.sub = .amplitude) (active : s.dec.active = some (j, c))
    (whole : s.dec.ampn = s.dec.mag) : settle s = resolveAmplitude s j c := by
  simp only [settle, seg, active, sub, whole, if_true, Nat.lt_irrefl, if_false]

theorem resolveAmplitude_dc {p : Int} (k : s.dec.k = 0) (hp : p = c.pred + amplitudeValue s.dec.mag s.dec.amp.toNat) (range : inI32 p = true) :
    resolveAmplitude s j c =
      addCoef (s.withDec { s.dec.setComp j { c with pred := p } with sub := .magnitude }) j { c with pred := p } s.dec.run p := by
  subst hp
  exact (if_pos k).trans (if_pos range)

theorem resolveAmplitude_dc_outOfRange {p : Int} (k : s.dec.k = 0) (hp : p = c.pred + amplitudeValue s.dec.mag s.dec.amp.toNat)
    (range : inI32 p = false) : resolveAmplitude s j c = .next (errorEntry .e35 s) := by
  subst hp
  exact (if_pos k).trans (if_neg (Bool.eq_false_iff.1 range))

theorem resolveAmplitude_ac (k : 1 ≤ s.dec.k) :
    resolveAmplitude s j c =
      addCoef (s.withDec { s.dec with sub := .magnitude }) j c s.dec.run (amplitudeValue s.dec.mag s.dec.amp.toNat) :=
  if_neg (Nat.ne_of_gt k)

end Resolve

/-- The component at `j` written twice: the second write stands. -/
theorem setComp_withScratch (d : Decoder) (j k : Nat) (c c' : Component) (sub : Sub) :
    Decoder.withScratch { d.setComp j c with sub := sub } j c' k = { d with comps := d.comps.set j c', sub := sub, k := k } := by
  simp only [Decoder.withScratch, Decoder.setComp, List.set_set]

/-- Settles O29: the predictor's check, then `AddCoef` at index 0 without a run. -/
theorem dcCoefficientIsPredicted : Obligations.DcCoefficientIsPredicted := by
  intro s j c p x seg sub active whole k run hp hx
  rw [settle_amplitude seg sub active whole]
  obtain ⟨s', hs'⟩ : ∃ s', s' = s.withDec { s.dec.setComp j { c with pred := p } with sub := .magnitude } := ⟨_, rfl⟩
  have k' : s'.dec.k = 0 := by rw [hs']; exact k
  have scaled : scaledCoef s'.dec { c with pred := p } (s'.dec.k + 0) p = x := by
    rw [k', hs', hx]
    rfl
  have resolved : inI32 p = true → resolveAmplitude s j c = addCoef s' j { c with pred := p } 0 p := fun range => by
    rw [resolveAmplitude_dc k hp range, run, hs']
  refine ⟨fun predicted range => ?_, resolveAmplitude_dc_outOfRange k hp, fun predicted range => ?_⟩
  · rw [resolved predicted, addCoef_placed (by omega) (by rw [scaled]; exact range), scaled, k', hs']
    simp only [State.withDec, setComp_withScratch]
    rfl
  · rw [resolved predicted, addCoef_outOfRange (by omega) (by rw [scaled]; exact range), k', hs']
    simp only [State.withDec, setComp_withScratch, zeroFill]
    rw [Nat.zero_add, ← k]

/-- Settles O30: the product of a baseline amplitude is in range, so `AddCoef` places it unless the run leads past the block. -/
theorem acCoefficientIsPlaced : Obligations.AcCoefficientIsPlaced := by
  intro s j c v seg sub active whole k fits baseline hv
  rw [settle_amplitude seg sub active whole, resolveAmplitude_ac k, ← hv]
  have small : v.natAbs < 2 ^ 10 := hv ▸ (amplitudeValue_natAbs_lt fits).trans_le (Nat.pow_le_pow_right (by decide) baseline)
  have range : inI32 (scaledCoef s.dec c (s.dec.k + s.dec.run) v) = true := inI32_scaled small _
  refine ⟨fun past => addCoef_overrun past, fun inside =>
    ⟨placedScratch c.scratch s.dec.k s.dec.run (scaledCoef s.dec c (s.dec.k + s.dec.run) v), fun n => ?_, fun room => ?_, fun last => ?_⟩⟩
  · rw [read_placedScratch _ inside, scaledCoef]
    split_ifs with zeros here
    · rfl
    · simp only [here]
    · rfl
  · exact addCoef_placed (s := s.withDec { s.dec with sub := .magnitude }) room range
  · exact addCoef_last (s := s.withDec { s.dec with sub := .magnitude }) last range rfl

end Sys2Proof.Machine
end

section
/-! SUPPORT. The data units of a scan in order, and the cursors' place among them (43_mcu_color R149, R150). -/

namespace Sys2Proof.Machine

/-- The number of data units in one MCU of the components before a scan position. -/
def unitsBefore (d : Decoder) (q : Nat) : Nat := ((List.range q).map (unitsAt d)).sum

theorem unitsBefore_succ (d : Decoder) (q : Nat) : unitsBefore d (q + 1) = unitsBefore d q + unitsAt d q := by
  simp [unitsBefore, List.range_succ]

theorem unitIndex_eq (d : Decoder) (du : Nat) : unitIndex d du = d.mcu * unitsPerMcu d + unitsBefore d d.scanPos + du := rfl

theorem unitsPerMcu_eq (d : Decoder) : unitsPerMcu d = unitsBefore d d.ns := rfl

theorem unitsBefore_mono (d : Decoder) {q q' : Nat} (h : q ≤ q') : unitsBefore d q ≤ unitsBefore d q' := by
  induction h with
  | refl => exact Nat.le_refl _
  | step _ ih => exact ih.trans (unitsBefore_succ d _ ▸ Nat.le_add_right _ _)

theorem unitsAt_eq {d : Decoder} {q j : Nat} {c : Component} (hq : d.order[q]? = some j) (hc : d.comps[j]? = some c) :
    unitsAt d q = c.h * c.v := by
  simp only [unitsAt, hq, hc]

@[simp] theorem Decoder.atUnit_order (d : Decoder) (j : Nat) (c : Component) (du scanPos mcu : Nat) :
    (d.atUnit j c du scanPos mcu).order = d.order := rfl

/-- The cursors do not change how many data units a component has. -/
theorem unitsAt_atUnit {d : Decoder} {j : Nat} {c : Component} (at_j : d.comps[j]? = some c) (du scanPos mcu : Nat) :
    unitsAt (d.atUnit j c du scanPos mcu) = unitsAt d := by
  funext q
  cases hq : d.order[q]? with
  | none => simp only [unitsAt, Decoder.atUnit_order, hq]
  | some i =>
    by_cases here : i = j
    · subst here
      rw [unitsAt_eq hq at_j, unitsAt_eq (d := d.atUnit i c du scanPos mcu) hq (setComp_at at_j)]
    · have other : (d.atUnit j c du scanPos mcu).comps[i]? = d.comps[i]? := List.getElem?_set_ne (Ne.symm here)
      simp only [unitsAt, Decoder.atUnit_order, hq, other]

theorem unitIndex_atUnit {d : Decoder} {j : Nat} {c : Component} (at_j : d.comps[j]? = some c) (du scanPos mcu n : Nat) :
    unitIndex (d.atUnit j c du scanPos mcu) n = mcu * unitsPerMcu d + unitsBefore d scanPos + n := by
  rw [unitIndex, unitsPerMcu, unitsAt_atUnit at_j]
  rfl

/-- A component stands at every scan position. -/
theorem Decoder.InScan.comp_at {d : Decoder} (h : d.InScan) {q : Nat} (hq : q < d.ns) :
    ∃ i c, d.order[q]? = some i ∧ d.comps[i]? = some c := by
  obtain ⟨length, ns, -, lt⟩ := h.base.order h.scanPresent
  obtain ⟨count, -⟩ := h.base.frame.count h.framePresent
  have at_q := List.getElem?_eq_getElem (l := d.order) (i := q) (by omega)
  have below := lt _ (List.mem_of_getElem? at_q)
  exact ⟨_, _, at_q, List.getElem?_eq_getElem (by omega)⟩

/-- The cursors at any scan position find a component. -/
theorem Decoder.InScan.atUnit_active {d : Decoder} (h : d.InScan) {j : Nat} {c : Component} (active : ActiveOk d j c) (du : Nat) {scanPos : Nat}
    (hpos : scanPos < d.ns) (mcu : Nat) :
    ∃ i c', (d.atUnit j c du scanPos mcu).active = some (i, c') := by
  obtain ⟨i, c', at_pos, at_i⟩ := h.comp_at hpos
  by_cases here : i = j
  · subst here
    exact ⟨i, _, active_eq_some.2 ⟨at_pos, setComp_at active.comp⟩⟩
  · exact ⟨i, c', active_eq_some.2 ⟨at_pos, (List.getElem?_set_ne (Ne.symm here)).trans at_i⟩⟩

/-- The data units of the MCU up to the end of the active component: all of them exactly when it is the last component. -/
theorem Decoder.InScan.unitsBefore_next {d : Decoder} (h : d.InScan) {j : Nat} {c : Component} (active : ActiveOk d j c) :
    unitsBefore d (d.scanPos + 1) = unitsBefore d d.scanPos + c.h * c.v
      ∧ (d.scanPos + 1 = d.ns → unitsBefore d (d.scanPos + 1) = unitsPerMcu d)
      ∧ (d.scanPos + 1 ≠ d.ns → unitsBefore d (d.scanPos + 1) < unitsPerMcu d) := by
  have scanPos := h.scanPos
  refine ⟨by rw [unitsBefore_succ, unitsAt_eq active.order active.comp], fun last => by rw [last, unitsPerMcu_eq], fun more => ?_⟩
  obtain ⟨i, c', at_next, at_i⟩ := h.comp_at (q := d.scanPos + 1) (by omega)
  have pos := factors_pos h.base.frame at_i
  calc unitsBefore d (d.scanPos + 1) < unitsBefore d (d.scanPos + 1) + unitsAt d (d.scanPos + 1) := by rw [unitsAt_eq at_next at_i]; omega
    _ = unitsBefore d (d.scanPos + 1 + 1) := (unitsBefore_succ d _).symm
    _ ≤ unitsPerMcu d := unitsPerMcu_eq d ▸ unitsBefore_mono d (by omega)

/-- The data unit at the cursors is the image's last one exactly when all three cursors stand at their last place. -/
theorem Decoder.InScan.last_unit_iff {d : Decoder} (h : d.InScan) {j : Nat} {c : Component} (active : ActiveOk d j c) :
    unitIndex d c.du + 1 = d.mcuTotal * unitsPerMcu d ↔ c.du + 1 = c.h * c.v ∧ d.scanPos + 1 = d.ns ∧ d.mcu + 1 = d.mcuTotal := by
  obtain ⟨next, lastComponent, moreComponents⟩ := h.unitsBefore_next active
  have unit := active.unit
  have thisMcu : (d.mcu + 1) * unitsPerMcu d ≤ d.mcuTotal * unitsPerMcu d := Nat.mul_le_mul_right _ h.mcu
  rw [Nat.add_mul, Nat.one_mul] at thisMcu
  rw [unitIndex_eq]
  constructor
  · intro last
    by_cases component : d.scanPos + 1 = d.ns
    · have whole := lastComponent component
      refine ⟨by omega, component, ?_⟩
      by_contra more
      have nextMcu : (d.mcu + 2) * unitsPerMcu d ≤ d.mcuTotal * unitsPerMcu d :=
        Nat.mul_le_mul_right _ (Nat.lt_of_le_of_ne h.mcu more)
      rw [Nat.add_mul] at nextMcu
      omega
    · have := moreComponents component
      omega
  · rintro ⟨du, component, mcu⟩
    have whole := lastComponent component
    rw [← mcu, Nat.add_mul, Nat.one_mul]
    omega

/-- From any other data unit the cursors move to the next one in number. -/
theorem Decoder.InScan.advance_to_next {d : Decoder} (h : d.InScan) {j : Nat} {c : Component} (active : ActiveOk d j c)
    (more : ¬(c.du + 1 = c.h * c.v ∧ d.scanPos + 1 = d.ns ∧ d.mcu + 1 = d.mcuTotal)) :
    ∃ du scanPos mcu, advanceCursors d j c = d.atUnit j c du scanPos mcu
      ∧ ∃ j' c', (d.atUnit j c du scanPos mcu).active = some (j', c')
        ∧ unitIndex (d.atUnit j c du scanPos mcu) c'.du = unitIndex d c.du + 1 := by
  obtain ⟨next, lastComponent, -⟩ := h.unitsBefore_next active
  have scanPos_lt := h.scanPos
  -- Whatever component a move with counter 0 finds, its own counter is 0.
  have fresh : ∀ {scanPos mcu : Nat}, scanPos < d.ns → mcu * unitsPerMcu d + unitsBefore d scanPos = unitIndex d c.du + 1 →
      ∃ j' c', (d.atUnit j c 0 scanPos mcu).active = some (j', c')
        ∧ unitIndex (d.atUnit j c 0 scanPos mcu) c'.du = unitIndex d c.du + 1 := fun {scanPos mcu} hpos number => by
    obtain ⟨j', c', found⟩ := h.atUnit_active active 0 hpos mcu
    obtain ⟨order, comp⟩ := active_eq_some.1 found
    obtain ⟨du, -⟩ := setDu_zero h active order comp
    exact ⟨j', c', found, by rw [unitIndex_atUnit active.comp, du, Nat.add_zero, number]⟩
  rcases advanceCursors_cases d j c with ⟨-, eq⟩ | ⟨last, ⟨component, eq⟩ | ⟨component, ⟨-, eq⟩ | ⟨mcu, -⟩⟩⟩
  · refine ⟨_, _, _, eq, j, { c with du := c.du + 1 }, active_eq_some.2 ⟨active.order, setComp_at active.comp⟩, ?_⟩
    rw [unitIndex_atUnit active.comp, unitIndex_eq]
    rfl
  · exact ⟨_, _, _, eq, fresh (by omega) (by rw [next, unitIndex_eq]; omega)⟩
  · have whole := lastComponent component
    refine ⟨_, _, _, eq, fresh (by omega) ?_⟩
    rw [Nat.add_mul, Nat.one_mul, unitIndex_eq, show unitsBefore d 0 = 0 from rfl]
    omega
  · exact absurd ⟨last, component, mcu⟩ more

/-- From the last data unit the scan ends. -/
theorem advanceCursors_last {d : Decoder} {j : Nat} {c : Component}
    (last : c.du + 1 = c.h * c.v ∧ d.scanPos + 1 = d.ns ∧ d.mcu + 1 = d.mcuTotal) :
    advanceCursors d j c = (d.atUnit j c 0 0 (d.mcu + 1)).scanEnd := by
  obtain ⟨unit, component, mcu⟩ := last
  rcases advanceCursors_cases d j c with ⟨more, -⟩ | ⟨-, ⟨more, -⟩ | ⟨-, ⟨more, -⟩ | ⟨-, eq⟩⟩⟩
  · exact absurd unit more
  · exact absurd component more
  · exact absurd mcu more
  · exact eq

/-- The cursors do not read the coefficient index. -/
theorem advanceCursors_withK (d : Decoder) (j : Nat) (c : Component) (k : Nat) : advanceCursors { d with k := k } j c = advanceCursors d j c := rfl

/-- Settles O34: the cursors move to the next number unless all three stand at their last place, which is the last number. -/
theorem cursorsCountDataUnits : Obligations.CursorsCountDataUnits := by
  intro s j c safe seg active
  have inScan : Decoder.InScan { s.dec with k := 0 } := safe.inScan seg
  have activeOk : ActiveOk { s.dec with k := 0 } j c := inScan.activeOk active
  have last_iff : unitIndex s.dec c.du + 1 = s.dec.mcuTotal * unitsPerMcu s.dec ↔ _ := inScan.last_unit_iff activeOk
  refine ⟨_, rfl, ?_⟩
  by_cases last : unitIndex s.dec c.du + 1 = s.dec.mcuTotal * unitsPerMcu s.dec
  · rw [← advanceCursors_withK s.dec j c 0, advanceCursors_last (last_iff.1 last)]
    exact ⟨rfl, fun _ => ⟨rfl, rfl, rfl⟩, fun more => absurd last more⟩
  · obtain ⟨du, scanPos, mcu, eq, next⟩ := inScan.advance_to_next activeOk (mt last_iff.2 last)
    rw [← advanceCursors_withK s.dec j c 0, eq]
    exact ⟨rfl, fun ends => absurd ends last, fun _ => ⟨inScan.incomplete, seg, rfl, next⟩⟩

end Sys2Proof.Machine
end

section
/-! SUPPORT. The component specifications of a header, checked in stream order (40_segments R99, R102), and the frame header
(30_encoding R74; 40_segments R99, R100). -/

namespace Sys2Proof.Machine

/-! ### Checks in stream order -/

section Specifications

variable {α : Type} {f : Nat → Nat → Except Err (List α)} {ok : Nat → Prop} {fails : Nat → Err → Prop} {item : Nat → α}

/-- `f n i` reads `n` specifications from the `i`-th on. One that fails after legal ones ends the reading with its error. -/
theorem read_until_failure (next : ∀ n i, (∀ i' < i, ok i') → ok i → f (n + 1) i = (f n (i + 1)).map (item i :: ·))
    (stop : ∀ n i e, (∀ i' < i, ok i') → fails i e → f (n + 1) i = .error e) {n i j : Nat} {e : Err} (hi : i ≤ j) (hj : j < i + n)
    (earlier : ∀ j' < j, ok j') (failure : fails j e) : f n i = .error e := by
  induction n generalizing i with
  | zero => omega
  | succ n ih =>
    rcases Nat.lt_or_eq_of_le hi with later | rfl
    · rw [next n i (fun i' h => earlier i' (h.trans later)) (earlier i later), ih later (by omega)]
      rfl
    · exact stop n i e earlier failure

/-- Legal specifications are all read. -/
theorem read_all (done : ∀ i, f 0 i = .ok []) (next : ∀ n i, (∀ i' < i, ok i') → ok i → f (n + 1) i = (f n (i + 1)).map (item i :: ·))
    {n i : Nat} (legal : ∀ j < i + n, ok j) : f n i = .ok ((List.range' i n).map item) := by
  induction n generalizing i with
  | zero => exact done i
  | succ n ih =>
    rw [next n i (fun i' h => legal i' (by omega)) (legal i (by omega)), ih fun j h => legal j (by omega)]
    rfl

end Specifications

/-! ### Fields of a payload -/

theorem byteAt_drop (p : List Byte) (n i : Nat) : byteAt (p.drop n) i = byteAt p (n + i) := by
  simp only [byteAt, List.getD_eq_getElem?_getD, List.getElem?_drop]

theorem byteAt_of_getElem? {p : List Byte} {i : Nat} {b : Byte} (h : p[i]? = some b) : byteAt p i = b := by
  rw [byteAt, List.getD_eq_getElem?_getD, h, Option.getD_some]

/-- The `i`-th byte of the `j`-th of blocks of `w` bytes each. -/
theorem getElem?_blocks {α : Type} {block : α → List Byte} {w : Nat} (width : ∀ a, (block a).length = w) {l : List α} {j i : Nat} {a : α}
    (at_j : l[j]? = some a) (hi : i < w) : (l.flatMap block)[w * j + i]? = (block a)[i]? := by
  induction l generalizing j with
  | nil => cases at_j
  | cons a₀ l ih =>
    rw [List.flatMap_cons]
    cases j with
    | zero =>
      obtain rfl : a₀ = a := Option.some.inj at_j
      rw [Nat.mul_zero, Nat.zero_add, List.getElem?_append_left (by rw [width]; exact hi)]
    | succ j =>
      rw [List.getElem?_append_right (by rw [width, Nat.mul_add]; omega), width,
        show w * (j + 1) + i - w = w * j + i by rw [Nat.mul_add]; omega]
      exact ih at_j

theorem length_blocks {α : Type} {block : α → List Byte} {w : Nat} (width : ∀ a, (block a).length = w) (l : List α) :
    (l.flatMap block).length = w * l.length := by
  simp [List.length_flatMap, width, Nat.mul_comm]

theorem be16Bytes_toNat (x : U16) : BitVec.ofNat 8 (x.toNat / 256) ++ BitVec.ofNat 8 x.toNat = x := by
  have := x.isLt
  refine BitVec.eq_of_toNat_eq ?_
  rw [BitVec.toNat_append, BitVec.toNat_ofNat, BitVec.toNat_ofNat, ← Nat.shiftLeft_add_eq_or_of_lt (Nat.mod_lt _ (by decide)), Nat.shiftLeft_eq]
  omega

theorem toNat_eq_zero_iff {w : Nat} {x : BitVec w} : x.toNat = 0 ↔ x = 0 := by
  rw [BitVec.toNat_eq]
  simp

/-! ### The component specifications of a frame header -/

/-- The identifier of specification `j` is that of one before it (R74, R99). -/
def FrameIdRepeats (p : List Byte) (j : Nat) : Prop := ∃ j' < j, byteAt p (6 + 3 * j') = byteAt p (6 + 3 * j)

/-- The sampling factors of specification `j` are legal. -/
def FrameFactorsOk (p : List Byte) (j : Nat) : Prop :=
  factorOk (hiNibble (byteAt p (7 + 3 * j))).toNat ∧ factorOk (loNibble (byteAt p (7 + 3 * j))).toNat

/-- The quantization table of specification `j` is defined. -/
def FrameTableOk (qt : Vector QTable 4) (p : List Byte) (j : Nat) : Prop :=
  ∃ t : Fin 4, (byteAt p (8 + 3 * j)).toNat = t.val ∧ qt[t].defined = true

/-- Specification `j` passes its checks. -/
def FrameSpecOk (qt : Vector QTable 4) (p : List Byte) (j : Nat) : Prop := ¬FrameIdRepeats p j ∧ FrameFactorsOk p j ∧ FrameTableOk qt p j

/-- The error of the first check that specification `j` does not pass. -/
def FrameSpecFails (qt : Vector QTable 4) (p : List Byte) (j : Nat) (e : Err) : Prop :=
  FrameIdRepeats p j ∧ e = .e10 ∨ ¬FrameIdRepeats p j ∧ ¬FrameFactorsOk p j ∧ e = .e11
    ∨ ¬FrameIdRepeats p j ∧ FrameFactorsOk p j ∧ ¬FrameTableOk qt p j ∧ e = .e12

/-- The component that specification `j` declares (R99). -/
def frameComponent (p : List Byte) (j : Nat) : Component where
  id := byteAt p (6 + 3 * j)
  index := j
  h := (hiNibble (byteAt p (7 + 3 * j))).toNat
  v := (loNibble (byteAt p (7 + 3 * j))).toNat
  tq := Fin.ofNat 4 (byteAt p (8 + 3 * j)).toNat
  td := 0
  ta := 0
  pred := 0
  du := 0
  scratch := Vector.replicate 64 0

/-- `frameComponents` from specification `j` on, with the identifiers before it seen. -/
def frameComponentsFrom (qt : Vector QTable 4) (p : List Byte) (n j : Nat) : Except Err (List Component) :=
  frameComponents qt n j ((List.range j).map fun j' => byteAt p (6 + 3 * j')) (p.drop (6 + 3 * j))

/-- A selector names a defined table. -/
theorem tableOk_iff {α : Type} {defined : α → Bool} {tables : Vector α 4} {n : Nat} :
    (∃ t : Fin 4, n = t.val ∧ defined tables[t] = true) ↔ (decide (3 < n) || !defined tables[Fin.ofNat 4 n]) = false := by
  constructor
  · rintro ⟨t, rfl, h⟩
    rw [getFin_congr _ (Fin.ofNat_val_eq_self t), h]
    simp [Nat.le_of_lt_succ t.isLt]
  · intro h
    simp only [Bool.or_eq_false_iff, decide_eq_false_iff_not, Bool.not_eq_false'] at h
    exact ⟨Fin.ofNat 4 n, (Nat.mod_eq_of_lt (by omega)).symm, h.2⟩

/-- One specification: its three checks in order, then the others. -/
theorem frameComponentsFrom_succ (qt : Vector QTable 4) (p : List Byte) (n j : Nat) [Decidable (FrameIdRepeats p j)]
    [Decidable (FrameFactorsOk p j)] [Decidable (FrameTableOk qt p j)] :
    frameComponentsFrom qt p (n + 1) j =
      if FrameIdRepeats p j then .error .e10
      else if ¬FrameFactorsOk p j then .error .e11
      else if ¬FrameTableOk qt p j then .error .e12
      else (frameComponentsFrom qt p n (j + 1)).map (frameComponent p j :: ·) := by
  have repeats : ((List.range j).map fun j' => byteAt p (6 + 3 * j')).contains (byteAt p (6 + 3 * j)) = true ↔ FrameIdRepeats p j := by
    simp [FrameIdRepeats]
  have factors : (!(legalFactor (hiNibble (byteAt p (7 + 3 * j))).toNat && legalFactor (loNibble (byteAt p (7 + 3 * j))).toNat)) = true
      ↔ ¬FrameFactorsOk p j := by
    rw [Bool.not_eq_true', ← Bool.not_eq_true, Bool.and_eq_true, legalFactor_ok, legalFactor_ok]
    rfl
  have table : (decide (3 < (byteAt p (8 + 3 * j)).toNat) || !qt[Fin.ofNat 4 (byteAt p (8 + 3 * j)).toNat].defined) = true
      ↔ ¬FrameTableOk qt p j := by
    rw [FrameTableOk, tableOk_iff (defined := QTable.defined), Bool.not_eq_false]
  have field : ∀ i, byteAt (p.drop (6 + 3 * j)) i = byteAt p (6 + i + 3 * j) := fun i => by rw [byteAt_drop, Nat.add_right_comm]
  have rest : frameComponentsFrom qt p n (j + 1) = frameComponents qt n (j + 1)
      (((List.range j).map fun j' => byteAt p (6 + 3 * j')) ++ [byteAt p (6 + 3 * j)]) ((p.drop (6 + 3 * j)).drop 3) := by
    rw [frameComponentsFrom, List.range_succ, List.map_append, List.drop_drop]
    rfl
  rw [rest, frameComponentsFrom, frameComponents]
  simp only [field, repeats, factors, table, Nat.add_zero, Nat.reduceAdd]
  split_ifs
  · rfl
  · cases frameComponents qt n (j + 1) (((List.range j).map fun j' => byteAt p (6 + 3 * j')) ++ [byteAt p (6 + 3 * j)])
      ((p.drop (6 + 3 * j)).drop 3) <;> rfl
  · rfl
  · rfl

theorem frameComponentsFrom_next {qt : Vector QTable 4} {p : List Byte} (n j : Nat) (ok : FrameSpecOk qt p j) :
    frameComponentsFrom qt p (n + 1) j = (frameComponentsFrom qt p n (j + 1)).map (frameComponent p j :: ·) := by
  classical
  obtain ⟨fresh, factors, table⟩ := ok
  rw [frameComponentsFrom_succ, if_neg fresh, if_neg (not_not_intro factors), if_neg (not_not_intro table)]

theorem frameComponentsFrom_stop {qt : Vector QTable 4} {p : List Byte} (n j : Nat) {e : Err} (failure : FrameSpecFails qt p j e) :
    frameComponentsFrom qt p (n + 1) j = .error e := by
  classical
  rw [frameComponentsFrom_succ]
  rcases failure with ⟨again, rfl⟩ | ⟨fresh, factors, rfl⟩ | ⟨fresh, factors, table, rfl⟩
  · rw [if_pos again]
  · rw [if_neg fresh, if_pos factors]
  · rw [if_neg fresh, if_neg (not_not_intro factors), if_pos table]

/-! ### The checks of a frame header -/

/-- The header passes every check before its component specifications (R99). -/
structure FrameSized (d : Decoder) (p : List Byte) : Prop where
  absent : d.framePresent = false
  precision : byteAt p 0 = 8
  height : fieldU16 p 1 ≠ 0
  width : fieldU16 p 3 ≠ 0
  one_le : 1 ≤ (byteAt p 5).toNat
  le_four : (byteAt p 5).toNat ≤ 4
  length : p.length = 6 + 3 * (byteAt p 5).toNat

/-- After the precision come the sizes, the component count, the length, the component specifications and the image's size. -/
theorem checkFrame_baseline {cfg : Params} {d : Decoder} {p : List Byte} (absent : d.framePresent = false) (long : 6 ≤ p.length)
    (precision : byteAt p 0 = 8) :
    checkFrame cfg d p =
      if fieldU16 p 1 = 0 ∨ fieldU16 p 3 = 0 then .error .e8
      else if (byteAt p 5).toNat < 1 ∨ 4 < (byteAt p 5).toNat then .error .e9
      else if p.length ≠ 6 + 3 * (byteAt p 5).toNat then .error .e3
      else (frameComponentsFrom d.qt p (byteAt p 5).toNat 0).bind fun cs =>
        if cfg.maxImageBytes < (fieldU16 p 3).toNat * (fieldU16 p 1).toNat * (byteAt p 5).toNat then .error .e40 else .ok cs := by
  have not12 : byteAt p 0 ≠ 12 := by rw [precision]; decide
  have components : frameComponents d.qt (byteAt p 5).toNat 0 [] (p.drop 6) = frameComponentsFrom d.qt p (byteAt p 5).toNat 0 := rfl
  simp only [checkFrame, absent, Bool.false_eq_true, if_false, if_neg (Nat.not_lt.2 long), if_neg not12, if_neg (not_not_intro precision),
    toNat_eq_zero_iff, components]
  cases frameComponentsFrom d.qt p (byteAt p 5).toNat 0 <;> rfl

theorem checkFrame_sized {cfg : Params} {d : Decoder} {p : List Byte} (h : FrameSized d p) :
    checkFrame cfg d p = (frameComponentsFrom d.qt p (byteAt p 5).toNat 0).bind fun cs =>
      if cfg.maxImageBytes < (fieldU16 p 3).toNat * (fieldU16 p 1).toNat * (byteAt p 5).toNat then .error .e40 else .ok cs := by
  obtain ⟨absent, precision, height, width, one_le, le_four, length⟩ := h
  rw [checkFrame_baseline absent (by omega) precision, if_neg (not_or_intro height width), if_neg (by omega), if_neg (not_not_intro length)]

theorem exec_sof_of_segment {s : State} {i : Instr} {mode : Mode} {p : List Byte} (hm : modeOf i = some mode) (seg : s.dec.seg = .sof)
    (at_pos : segmentAt s.dec p) : exec i s = sofBody mode s (p.length + 2) p := by
  unfold modeOf at hm
  split at hm <;> cases hm <;> exact inHandler_of_segment seg at_pos _ _

theorem sofBody_raises {s : State} {p : List Byte} {e : Err} (h : checkFrame s.cfg s.dec p = .error e) (mode : Mode) (len : Nat) :
    sofBody mode s len p = .next (errorEntry e s) := by
  rw [sofBody, h]
  rfl

/-- Settles O18: each check raises when those before it pass; the component specifications by `read_until_failure`. -/
theorem frameHeaderRaises : Obligations.FrameHeaderRaises := by
  intro s i mode p e nf hm seg at_pos hnf
  subst hnf
  intro sizeOk dup factors table long counted failure
  rw [exec_sof_of_segment hm seg at_pos]
  refine sofBody_raises ?_ mode _
  have sized : counted → p.length = 6 + 3 * (byteAt p 5).toNat → FrameSized s.dec p := fun h length => by
    obtain ⟨⟨absent, -⟩, ⟨precision, height, width⟩, one_le, le_four⟩ := h
    exact ⟨absent, precision, height, width, one_le, le_four, length⟩
  rcases failure with ⟨present, rfl⟩ | ⟨absent, short, rfl⟩ | ⟨⟨absent, long⟩, twelve, rfl⟩ | ⟨⟨absent, long⟩, not12, not8, rfl⟩
    | ⟨⟨absent, long⟩, eight, empty, rfl⟩ | ⟨⟨absent, long⟩, ⟨eight, height, width⟩, count, rfl⟩
    | ⟨⟨⟨absent, long⟩, ⟨eight, height, width⟩, count⟩, length, rfl⟩ | ⟨count, length, j, hj, earlier, failure⟩
    | ⟨count, length, legal, large, rfl⟩
  · simp [checkFrame, present]
  · simp [checkFrame, absent, short]
  · simp [checkFrame, absent, Nat.not_lt.2 long, twelve]
  · simp only [checkFrame, absent, Bool.false_eq_true, if_false, if_neg (Nat.not_lt.2 long), if_neg not12, if_pos not8]
  · rw [checkFrame_baseline absent long eight, if_pos empty]
  · rw [checkFrame_baseline absent long eight, if_neg (not_or_intro height width), if_pos count]
  · rw [checkFrame_baseline absent long eight, if_neg (not_or_intro height width), if_neg (by omega), if_pos length]
  · have stopped : frameComponentsFrom s.dec.qt p (byteAt p 5).toNat 0 = .error e :=
      read_until_failure (fun n i _ => frameComponentsFrom_next n i) (fun n i e _ => frameComponentsFrom_stop n i) (Nat.zero_le j) (by omega)
        earlier failure
    rw [checkFrame_sized (sized count length), stopped]
    rfl
  · have accepted : frameComponentsFrom s.dec.qt p (byteAt p 5).toNat 0 = .ok _ :=
      read_all (fun _ => rfl) (fun n i _ => frameComponentsFrom_next n i) fun j hj => legal j (by omega)
    rw [checkFrame_sized (sized count length), accepted]
    exact if_pos large

end Sys2Proof.Machine
end

section
/-! SUPPORT. An accepted frame header (40_segments R99, R100): its payload's fields (30_encoding R74), the component registers, the largest
factors and the MCU grid. -/

namespace Sys2Proof.Machine

/-! ### The fields of a frame header -/

/-- The bytes of a component specification (R74). -/
def frameSpecBytes (c : FrameSpec) : List Byte := [c.id, BitVec.ofNat 8 (16 * c.h + c.v), BitVec.ofNat 8 c.tq.val]

theorem framePayload_eq (height width : U16) (cs : List FrameSpec) :
    framePayload height width cs =
      [8, BitVec.ofNat 8 (height.toNat / 256), BitVec.ofNat 8 height.toNat, BitVec.ofNat 8 (width.toNat / 256), BitVec.ofNat 8 width.toNat,
        BitVec.ofNat 8 cs.length] ++ cs.flatMap frameSpecBytes := rfl

section Payload

variable {height width : U16} {cs : List FrameSpec}

theorem framePayload_length : (framePayload height width cs).length = 6 + 3 * cs.length := by
  rw [framePayload_eq, List.length_append, length_blocks (w := 3) fun _ => rfl]
  rfl

theorem framePayload_height : fieldU16 (framePayload height width cs) 1 = height := be16Bytes_toNat height

theorem framePayload_width : fieldU16 (framePayload height width cs) 3 = width := be16Bytes_toNat width

theorem framePayload_count (h : cs.length ≤ 4) : (byteAt (framePayload height width cs) 5).toNat = cs.length := by
  show (BitVec.ofNat 8 cs.length).toNat = cs.length
  rw [BitVec.toNat_ofNat]
  omega

theorem framePayload_spec {j : Nat} {c : FrameSpec} (at_j : cs[j]? = some c) :
    byteAt (framePayload height width cs) (6 + 3 * j) = c.id
      ∧ byteAt (framePayload height width cs) (7 + 3 * j) = BitVec.ofNat 8 (16 * c.h + c.v)
      ∧ byteAt (framePayload height width cs) (8 + 3 * j) = BitVec.ofNat 8 c.tq.val := by
  have field : ∀ {i : Nat} {b : Byte}, i < 3 → (frameSpecBytes c)[i]? = some b →
      byteAt (framePayload height width cs) (6 + (3 * j + i)) = b := fun {i b} hi hb => byteAt_of_getElem? <| by
    rw [framePayload_eq, List.getElem?_append_right (by simp), ← hb,
      ← getElem?_blocks (block := frameSpecBytes) (fun _ => rfl) at_j hi]
    exact congrArg _ (Nat.add_sub_cancel_left _ _)
  refine ⟨field (i := 0) (by decide) rfl, ?_, ?_⟩
  · rw [show 7 + 3 * j = 6 + (3 * j + 1) by omega]
    exact field (by decide) rfl
  · rw [show 8 + 3 * j = 6 + (3 * j + 2) by omega]
    exact field (by decide) rfl

end Payload

/-! ### The component registers -/

/-- The component declared by a legal specification of the payload. -/
theorem frameComponent_spec {height width : U16} {cs : List FrameSpec} {j : Nat} {c : FrameSpec} (at_j : cs[j]? = some c)
    (factors : factorOk c.h ∧ factorOk c.v) :
    let k := frameComponent (framePayload height width cs) j
    k.id = c.id ∧ k.index = j ∧ k.h = c.h ∧ k.v = c.v ∧ k.tq = c.tq ∧ k.pred = 0 ∧ k.du = 0 := by
  obtain ⟨id, hv, tq⟩ := framePayload_spec (height := height) (width := width) at_j
  obtain ⟨high, low⟩ := nibbles_ofNat (h := c.h) (l := c.v) (by unfold factorOk at factors; omega) (by unfold factorOk at factors; omega)
  have table : Fin.ofNat 4 (BitVec.ofNat 8 c.tq.val).toNat = c.tq := Fin.ext (by
    simp only [BitVec.toNat_ofNat, Fin.val_ofNat]
    omega)
  refine ⟨id, rfl, ?_, ?_, ?_, rfl, rfl⟩
  · rw [frameComponent, hv, high]
  · rw [frameComponent, hv, low]
  · rw [frameComponent, tq, table]

theorem frameSpecOk_payload {height width : U16} {cs : List FrameSpec} {qt : Vector QTable 4} (nodup : (cs.map FrameSpec.id).Nodup)
    (legal : ∀ c ∈ cs, factorOk c.h ∧ factorOk c.v ∧ qt[c.tq].defined = true) {j : Nat} (hj : j < cs.length) :
    FrameSpecOk qt (framePayload height width cs) j := by
  have spec := fun {i : Nat} (hi : i < cs.length) => framePayload_spec (height := height) (width := width) (List.getElem?_eq_getElem hi)
  obtain ⟨id, hv, tq⟩ := spec hj
  obtain ⟨h, v, table⟩ := legal cs[j] (List.getElem_mem hj)
  obtain ⟨high, low⟩ := nibbles_ofNat (h := cs[j].h) (l := cs[j].v) (by unfold factorOk at h; omega) (by unfold factorOk at v; omega)
  refine ⟨?_, ?_, cs[j].tq, ?_, table⟩
  · rintro ⟨j', earlier, same⟩
    rw [(spec (earlier.trans hj)).1, id] at same
    have eq := (List.Nodup.getElem_inj_iff nodup (hi := by simpa using earlier.trans hj) (hj := by simpa using hj)).1 (by simpa using same)
    omega
  · rw [FrameFactorsOk, hv, high, low]
    exact ⟨h, v⟩
  · rw [tq, BitVec.toNat_ofNat]
    omega

/-! ### Geometry -/

/-- The largest of some positive factors is one of them. -/
theorem largest_factor (g : FrameSpec → Nat) {cs : List FrameSpec} (nonempty : cs ≠ []) (pos : ∀ c ∈ cs, 0 < g c) :
    (∀ c ∈ cs, g c ≤ (cs.map g).foldl max 0) ∧ ∃ c ∈ cs, g c = (cs.map g).foldl max 0 := by
  have le : ∀ c ∈ cs, g c ≤ (cs.map g).foldl max 0 := fun c hc => (foldl_max_le _ 0).2 _ (List.mem_map_of_mem hc)
  refine ⟨le, ?_⟩
  rcases foldl_max_mem (cs.map g) 0 with zero | mem
  · obtain ⟨c, hc⟩ := List.exists_mem_of_ne_nil cs nonempty
    have := le c hc
    have := pos c hc
    omega
  · exact List.mem_map.1 mem

/-- The least number of MCUs that cover a side (R100). -/
theorem ceilDiv_le_iff {a b n : Nat} (hb : 0 < b) : ceilDiv a b ≤ n ↔ a ≤ b * n := by
  rw [ceilDiv, ← Nat.ceilDiv_eq_add_pred_div, ceilDiv_le_iff_le_smul hb, smul_eq_mul]

/-- The components of a frame header with as many specifications as `cs`. -/
def frameComponentList (p : List Byte) (cs : List FrameSpec) : List Component := (List.range' 0 cs.length).map (frameComponent p)

theorem frameComponentList_getElem? {p : List Byte} {cs : List FrameSpec} {j : Nat} (hj : j < cs.length) :
    (frameComponentList p cs)[j]? = some (frameComponent p j) := by
  rw [frameComponentList, List.getElem?_map, List.getElem?_range' hj]
  simp

/-- A factor of the components is largest where it is largest in the specifications. -/
theorem maxFactor_frameComponentList {p : List Byte} {cs : List FrameSpec} {f : Component → Nat} {g : FrameSpec → Nat}
    (same : ∀ (j : Nat) (c : FrameSpec), cs[j]? = some c → f (frameComponent p j) = g c) :
    maxFactor f (frameComponentList p cs) = (cs.map g).foldl max 0 := by
  have factors : (frameComponentList p cs).map f = cs.map g := List.ext_getElem (by simp [frameComponentList]) fun j _ hj => by
    have := same j _ (List.getElem?_eq_getElem (by simpa using hj))
    simpa [frameComponentList] using this
  rw [maxFactor, factors]

/-- The header's checks accept the payload of legal specifications. -/
theorem checkFrame_payload {cfg : Params} {d : Decoder} {height width : U16} {cs : List FrameSpec} (absent : d.framePresent = false)
    (height_ne : height ≠ 0) (width_ne : width ≠ 0) (one_le : 1 ≤ cs.length) (le_four : cs.length ≤ 4) (nodup : (cs.map FrameSpec.id).Nodup)
    (legal : ∀ c ∈ cs, factorOk c.h ∧ factorOk c.v ∧ d.qt[c.tq].defined = true)
    (size : width.toNat * height.toNat * cs.length ≤ cfg.maxImageBytes) :
    checkFrame cfg d (framePayload height width cs) = .ok (frameComponentList (framePayload height width cs) cs) := by
  have specs : frameComponentsFrom d.qt (framePayload height width cs) cs.length 0 = .ok (frameComponentList (framePayload height width cs) cs) :=
    read_all (fun _ => rfl) (fun n i _ => frameComponentsFrom_next n i) fun j hj => frameSpecOk_payload nodup legal (by omega)
  have count := framePayload_count (height := height) (width := width) le_four
  have sized : FrameSized d (framePayload height width cs) :=
    ⟨absent, rfl, framePayload_height ▸ height_ne, framePayload_width ▸ width_ne, count ▸ one_le, count ▸ le_four, count ▸ framePayload_length⟩
  rw [checkFrame_sized sized, count, specs, framePayload_height, framePayload_width]
  exact if_neg (Nat.not_lt.2 size)

/-- Settles O17: the payload passes the checks, the components are those declared, and the grid is made of least covers. -/
theorem frameHeaderCommits : Obligations.FrameHeaderCommits := by
  intro s i mode height width cs hm seg at_pos absent height_ne width_ne one_le le_four nodup legal size
  have nonempty : cs ≠ [] := List.ne_nil_of_length_pos one_le
  have declared : ∀ (j : Nat) (c : FrameSpec), cs[j]? = some c → _ := fun j c at_j => by
    obtain ⟨h, v, -⟩ := legal c (List.mem_of_getElem? at_j)
    exact frameComponent_spec (height := height) (width := width) at_j ⟨h, v⟩
  have hmax := maxFactor_frameComponentList (f := Component.h) (g := FrameSpec.h) fun j c at_j => by
    obtain ⟨-, -, h, -⟩ := declared j c at_j
    exact h
  have vmax := maxFactor_frameComponentList (f := Component.v) (g := FrameSpec.v) fun j c at_j => by
    obtain ⟨-, -, -, v, -⟩ := declared j c at_j
    exact v
  obtain ⟨h_le, ch, hch, h_eq⟩ := largest_factor FrameSpec.h nonempty fun c hc => factor_pos (legal c hc).1
  obtain ⟨v_le, cv, hcv, v_eq⟩ := largest_factor FrameSpec.v nonempty fun c hc => factor_pos (legal c hc).2.1
  have h_pos : 0 < 8 * (cs.map FrameSpec.h).foldl max 0 := Nat.mul_pos (by decide) (h_eq ▸ factor_pos (legal ch hch).1)
  have v_pos : 0 < 8 * (cs.map FrameSpec.v).foldl max 0 := Nat.mul_pos (by decide) (v_eq ▸ factor_pos (legal cv hcv).2.1)
  refine ⟨frameComponentList (framePayload height width cs) cs, (cs.map FrameSpec.h).foldl max 0, (cs.map FrameSpec.v).foldl max 0,
    ceilDiv width.toNat (8 * (cs.map FrameSpec.h).foldl max 0), ceilDiv height.toNat (8 * (cs.map FrameSpec.v).foldl max 0), ⟨0, 0, 0⟩, ?_,
    by simp [frameComponentList], fun j c at_j => ⟨_, frameComponentList_getElem? (List.getElem?_eq_some_iff.1 at_j).1, declared j c at_j⟩,
    fun c hc => ⟨h_le c hc, v_le c hc⟩, ⟨ch, hch, h_eq⟩, ⟨cv, hcv, v_eq⟩, (ceilDiv_le_iff h_pos).1 le_rfl, fun n => (ceilDiv_le_iff h_pos).2,
    (ceilDiv_le_iff v_pos).1 le_rfl, fun n => (ceilDiv_le_iff v_pos).2⟩
  rw [exec_sof_of_segment hm seg at_pos, sofBody, checkFrame_payload absent height_ne width_ne one_le le_four nodup legal size]
  simp only [commitFrame, framePayload_height, framePayload_width, framePayload_count le_four, hmax, vmax]
  rfl

end Sys2Proof.Machine
end

section
/-! SUPPORT. The component specifications of a scan header (30_encoding R76) and its checks (40_segments R102). -/

namespace Sys2Proof.Machine

/-! ### The component specifications of a scan header -/

/-- Specification `j` names a component of the frame (R102). -/
def ScanIdKnown (d : Decoder) (p : List Byte) (j : Nat) : Prop := ∃ k ∈ d.comps, k.id = byteAt p (1 + 2 * j)

/-- The component that specification `j` names is named by one before it. -/
def ScanIdRepeats (p : List Byte) (j : Nat) : Prop := ∃ j' < j, byteAt p (1 + 2 * j') = byteAt p (1 + 2 * j)

/-- The tables of specification `j` are defined. -/
def ScanTablesOk (d : Decoder) (p : List Byte) (j : Nat) : Prop :=
  ∃ td ta : Fin 4, (hiNibble (byteAt p (2 + 2 * j))).toNat = td.val ∧ (loNibble (byteAt p (2 + 2 * j))).toNat = ta.val
    ∧ d.dcTables[td].defined = true ∧ d.acTables[ta].defined = true

/-- Specification `j` passes its checks. -/
def ScanSpecOk (d : Decoder) (p : List Byte) (j : Nat) : Prop := ScanIdKnown d p j ∧ ¬ScanIdRepeats p j ∧ ScanTablesOk d p j

/-- The error of the first check that specification `j` does not pass. -/
def ScanSpecFails (d : Decoder) (p : List Byte) (j : Nat) (e : Err) : Prop :=
  (¬ScanIdKnown d p j ∨ ScanIdRepeats p j) ∧ e = .e18 ∨ ScanIdKnown d p j ∧ ¬ScanIdRepeats p j ∧ ¬ScanTablesOk d p j ∧ e = .e19

/-- The position of the component that specification `j` names. -/
def scanComp (d : Decoder) (p : List Byte) (j : Nat) : Option Nat := d.comps.findIdx? fun c => c.id == byteAt p (1 + 2 * j)

theorem scanComp_isSome {d : Decoder} {p : List Byte} {j : Nat} : (scanComp d p j).isSome = true ↔ ScanIdKnown d p j := by
  simp [scanComp, ScanIdKnown]

/-- Two specifications name one component exactly when they give one identifier. -/
theorem scanComp_eq_iff {d : Decoder} {p : List Byte} {j j' i : Nat} (h : scanComp d p j = some i) :
    scanComp d p j' = some i ↔ byteAt p (1 + 2 * j') = byteAt p (1 + 2 * j) := by
  have id : ∀ {j : Nat}, scanComp d p j = some i → ∃ hi : i < d.comps.length, d.comps[i].id = byteAt p (1 + 2 * j) := fun h => by
    obtain ⟨hi, found, -⟩ := List.findIdx?_eq_some_iff_getElem.1 h
    exact ⟨hi, by simpa using found⟩
  constructor
  · intro h'
    obtain ⟨hi, eq⟩ := id h
    obtain ⟨_, eq'⟩ := id h'
    exact eq'.symm.trans eq
  · intro same
    rw [← h, scanComp, same, scanComp]

/-- The entry that specification `j` declares. -/
def scanEntry (d : Decoder) (p : List Byte) (j : Nat) : ScanEntry :=
  ⟨(scanComp d p j).getD 0, Fin.ofNat 4 (hiNibble (byteAt p (2 + 2 * j))).toNat, Fin.ofNat 4 (loNibble (byteAt p (2 + 2 * j))).toNat⟩

/-- `scanEntries` from specification `j` on, with the components named before it seen. -/
def scanEntriesFrom (d : Decoder) (p : List Byte) (n j : Nat) : Except Err (List ScanEntry) :=
  scanEntries d n ((List.range j).map fun j' => (scanComp d p j').getD 0) (p.drop (1 + 2 * j))

theorem scanTablesOk_iff {d : Decoder} {p : List Byte} {j : Nat} :
    (decide (3 < (hiNibble (byteAt p (2 + 2 * j))).toNat) || decide (3 < (loNibble (byteAt p (2 + 2 * j))).toNat)
      || !d.dcTables[Fin.ofNat 4 (hiNibble (byteAt p (2 + 2 * j))).toNat].defined
      || !d.acTables[Fin.ofNat 4 (loNibble (byteAt p (2 + 2 * j))).toNat].defined) = true ↔ ¬ScanTablesOk d p j := by
  have split : ScanTablesOk d p j ↔ (∃ td : Fin 4, (hiNibble (byteAt p (2 + 2 * j))).toNat = td.val ∧ d.dcTables[td].defined = true)
      ∧ ∃ ta : Fin 4, (loNibble (byteAt p (2 + 2 * j))).toNat = ta.val ∧ d.acTables[ta].defined = true :=
    ⟨fun ⟨td, ta, h, h', dc, ac⟩ => ⟨⟨td, h, dc⟩, ta, h', ac⟩, fun ⟨⟨td, h, dc⟩, ta, h', ac⟩ => ⟨td, ta, h, h', dc, ac⟩⟩
  rw [split, tableOk_iff (defined := HuffTable.defined), tableOk_iff (defined := HuffTable.defined), ← Bool.or_eq_false_iff, Bool.not_eq_false]
  simp only [Bool.or_assoc, Bool.or_left_comm]

/-- One specification, when those before it name components: its checks in order, then the others. -/
theorem scanEntriesFrom_succ {d : Decoder} {p : List Byte} (n : Nat) {j : Nat} (earlier : ∀ j' < j, ScanIdKnown d p j')
    [Decidable (ScanIdKnown d p j)] [Decidable (ScanIdRepeats p j)] [Decidable (ScanTablesOk d p j)] :
    scanEntriesFrom d p (n + 1) j =
      if ¬ScanIdKnown d p j then .error .e18
      else if ScanIdRepeats p j then .error .e18
      else if ¬ScanTablesOk d p j then .error .e19
      else (scanEntriesFrom d p n (j + 1)).map (scanEntry d p j :: ·) := by
  have field : ∀ i, byteAt (p.drop (1 + 2 * j)) i = byteAt p (1 + i + 2 * j) := fun i => by rw [byteAt_drop, Nat.add_right_comm]
  have position : (d.comps.findIdx? fun c => c.id == byteAt p (1 + 2 * j)) = scanComp d p j := rfl
  rw [scanEntriesFrom, scanEntries]
  simp only [field, position, scanTablesOk_iff, Nat.add_zero, Nat.reduceAdd]
  cases found : scanComp d p j with
  | none =>
    rw [if_pos]
    rw [← scanComp_isSome, found]
    decide
  | some i =>
    have repeats : ((List.range j).map fun j' => (scanComp d p j').getD 0).contains i = true ↔ ScanIdRepeats p j := by
      simp only [List.contains_iff_mem, List.mem_map, List.mem_range, ScanIdRepeats]
      refine exists_congr fun j' => and_congr_right fun before => ?_
      obtain ⟨i', found'⟩ := Option.isSome_iff_exists.1 (scanComp_isSome.2 (earlier j' before))
      rw [← scanComp_eq_iff found, found', Option.getD_some, Option.some.injEq]
    have rest : scanEntriesFrom d p n (j + 1) = scanEntries d n (((List.range j).map fun j' => (scanComp d p j').getD 0) ++ [i])
        ((p.drop (1 + 2 * j)).drop 2) := by
      rw [scanEntriesFrom, List.range_succ, List.map_append, List.drop_drop, List.map_singleton, found]
      rfl
    have entry : scanEntry d p j = ⟨i, Fin.ofNat 4 (hiNibble (byteAt p (2 + 2 * j))).toNat, Fin.ofNat 4 (loNibble (byteAt p (2 + 2 * j))).toNat⟩ := by
      rw [scanEntry, found]
      rfl
    rw [if_neg (not_not_intro (scanComp_isSome.1 (found ▸ rfl))), rest, entry]
    simp only [repeats]
    cases scanEntries d n (((List.range j).map fun j' => (scanComp d p j').getD 0) ++ [i]) ((p.drop (1 + 2 * j)).drop 2) <;> rfl

theorem scanEntriesFrom_next {d : Decoder} {p : List Byte} (n j : Nat) (earlier : ∀ j' < j, ScanSpecOk d p j') (ok : ScanSpecOk d p j) :
    scanEntriesFrom d p (n + 1) j = (scanEntriesFrom d p n (j + 1)).map (scanEntry d p j :: ·) := by
  classical
  obtain ⟨known, fresh, tables⟩ := ok
  rw [scanEntriesFrom_succ n fun j' h => (earlier j' h).left, if_neg (not_not_intro known), if_neg fresh, if_neg (not_not_intro tables)]

theorem scanEntriesFrom_stop {d : Decoder} {p : List Byte} (n j : Nat) (e : Err) (earlier : ∀ j' < j, ScanSpecOk d p j')
    (failure : ScanSpecFails d p j e) : scanEntriesFrom d p (n + 1) j = .error e := by
  classical
  rw [scanEntriesFrom_succ n fun j' h => (earlier j' h).left]
  rcases failure with ⟨unknown | again, rfl⟩ | ⟨known, fresh, tables, rfl⟩
  · rw [if_pos unknown]
  · rw [if_pos again, ite_self]
  · rw [if_neg (not_not_intro known), if_neg fresh, if_pos tables]

/-! ### The checks of a scan header -/

/-- After the flags and the mode come the component count, the length, the component specifications and the range. -/
theorem checkScan_baseline {d : Decoder} {p : List Byte} (present : d.framePresent = true) (first : d.scanPresent = false)
    (baseline : d.mode = .baseline) :
    checkScan d p =
      if p = [] then .error .e3
      else if (byteAt p 0).toNat ≠ d.nf then .error .e17
      else if p.length ≠ 4 + 2 * (byteAt p 0).toNat then .error .e3
      else (scanEntriesFrom d p (byteAt p 0).toNat 0).bind fun es =>
        if p.drop (1 + 2 * (byteAt p 0).toNat) = [0, 63, 0] then .ok es else .error .e23 := by
  have entries : scanEntries d (byteAt p 0).toNat [] (p.drop 1) = scanEntriesFrom d p (byteAt p 0).toNat 0 := rfl
  have empty : p.length < 1 ↔ p = [] := by rw [Nat.lt_one_iff, List.length_eq_zero_iff]
  have length : 1 + 2 * (byteAt p 0).toNat + 3 = 4 + 2 * (byteAt p 0).toNat := by omega
  simp only [checkScan, present, first, baseline, entries, empty, length]
  cases scanEntriesFrom d p (byteAt p 0).toNat 0 <;> rfl

theorem sosBody_raises {s : State} {p : List Byte} {e : Err} (h : checkScan s.dec p = .error e) (len : Nat) :
    sosBody s len p = .next (errorEntry e s) := by
  rw [sosBody, h]
  rfl

/-- Settles O22: each check raises when those before it pass; the component specifications by `read_until_failure`. -/
theorem scanHeaderRaises : Obligations.ScanHeaderRaises := by
  intro s p e ns seg at_pos hns _
  subst hns
  intro known again tables open_ sized failure
  refine (inHandler_of_segment seg at_pos _ _).trans (sosBody_raises ?_ _)
  have specified : sized → checkScan s.dec p = (scanEntriesFrom s.dec p (byteAt p 0).toNat 0).bind fun es =>
      if p.drop (1 + 2 * (byteAt p 0).toNat) = [0, 63, 0] then .ok es else .error .e23 := fun h => by
    obtain ⟨⟨present, first⟩, baseline, nonempty, count, length⟩ := h
    rw [checkScan_baseline present first baseline, if_neg nonempty, if_neg (not_not_intro count), if_neg (not_not_intro length)]
  rcases failure with ⟨absent, rfl⟩ | ⟨present, second, rfl⟩ | ⟨⟨present, first⟩, mode, rfl⟩ | ⟨⟨present, first⟩, mode, rfl⟩
    | ⟨⟨present, first⟩, mode, rfl⟩ | ⟨⟨present, first⟩, mode, empty, rfl⟩ | ⟨⟨present, first⟩, mode, nonempty, count, rfl⟩
    | ⟨⟨present, first⟩, mode, nonempty, count, length, rfl⟩ | ⟨sized, j, hj, earlier, failure⟩ | ⟨sized, legal, range, rfl⟩
  · simp [checkScan, absent]
  · simp [checkScan, present, second]
  · simp [checkScan, present, first, mode]
  · simp [checkScan, present, first, mode]
  · simp [checkScan, present, first, mode]
  · rw [checkScan_baseline present first mode, if_pos empty]
  · rw [checkScan_baseline present first mode, if_neg nonempty, if_pos count]
  · rw [checkScan_baseline present first mode, if_neg nonempty, if_neg (not_not_intro count), if_pos length]
  · have stopped : scanEntriesFrom s.dec p (byteAt p 0).toNat 0 = .error e :=
      read_until_failure scanEntriesFrom_next scanEntriesFrom_stop (Nat.zero_le j) (by omega) earlier failure
    rw [specified sized, stopped]
    rfl
  · have accepted : scanEntriesFrom s.dec p (byteAt p 0).toNat 0 = .ok _ :=
      read_all (fun _ => rfl) scanEntriesFrom_next fun j hj => legal j (by omega)
    rw [specified sized, accepted]
    exact if_neg range

end Sys2Proof.Machine
end

section
/-! SUPPORT. The steps that run an instruction (46_host_interface R187), what the marker step does with each marker (40_segments R93 to R97),
and the handlers of APP0 and COM (R104 to R106). -/

namespace Sys2Proof.Machine

/-! ### The step -/

/-- The marker step runs the instruction that the two bytes at `D.pos` decode to (40_segments R93). -/
theorem markerUnit_of_decode {s : State} {b0 c : Byte} {i : Instr} (supplied : s.dec.pos + 2 ≤ s.dec.avail)
    (first : Memory.read s.dec.input s.dec.pos = some b0) (second : Memory.read s.dec.input (s.dec.pos + 1) = some c)
    (decoded : decode .marker [b0, c] = .ok (i, [])) : markerUnit s = exec i s := by
  obtain ⟨_, ⟨⟩, rfl⟩ := decode_ok_iff.1 decoded
  rw [markerUnit, if_neg (Nat.not_lt.2 supplied)]
  simp only [first, second]
  rfl

/-- Settles O4: the unit of work in `MARKER` is the marker step. -/
theorem stepRunsDecodedMarker : Obligations.StepRunsDecodedMarker := by
  intro s b0 c i running cancel marker supplied first second decoded
  rw [step_eq_unitOfWork running (by rw [marker]; rfl) cancel, unitOfWork_marker marker]
  exact markerUnit_of_decode supplied first second decoded

/-- Settles O5: the unit of work in a handler's state is the selecting marker's instruction. -/
theorem stepRunsHandler : Obligations.StepRunsHandler := by
  rintro s i _ running cancel handler rfl code
  rw [step_eq_unitOfWork running (handlerOf_not_final handler) cancel, unitOfWork_handler handler code]

/-! ### Markers -/

theorem inHandler_of_ne {g : Seg} {s : State} (h : s.dec.seg ≠ g) (handler marker : Host.Outcome State Fault Refusal) :
    inHandler g s handler marker = marker := if_neg h

theorem goto_of_seg {s : State} {g : Seg} (h : s.dec.seg = g) : s.goto g = s := by
  subst h
  rfl

/-- Settles O11: SOI goes to the state it is in, and in `MARKER` no handler's own unit of work runs. -/
theorem soiAndSelectingMarkers : Obligations.SoiAndSelectingMarkers := by
  refine ⟨fun s marker => congrArg Host.Outcome.next (goto_of_seg (s := s.consume 2) marker), fun s i g handler marker => ?_⟩
  unfold handlerOf at handler
  split at handler <;> cases handler <;> exact inHandler_of_ne (by rw [marker]; decide) _ _

/-- Settles O12: both ends of EOI are taken on the state with the marker consumed. -/
theorem eoiDeliversImage : Obligations.EoiDeliversImage := by
  refine fun s => ⟨fun img complete present => ?_, fun incomplete => ?_⟩
  · have delivered : eoiBody (s.consume 2) = .next (signalCompletion (.image { img with density := s.dec.density })
        ((s.consume 2).withDec { (s.consume 2).dec with img := some { img with density := s.dec.density }, seg := .done })) := by
      simp [eoiBody, complete, present]
    exact delivered.trans (congrArg Host.Outcome.next (signalCompletion_eq _ _))
  · have raised : eoiBody (s.consume 2) = raise .e38 (s.consume 2) := by simp [eoiBody, incomplete]
    exact raised

/-- The reserved rows of the marker table, each as its mask and its match (30_encoding R71). -/
def reservedRows : List (Byte × Byte) :=
  [(0xFE, 0x02), (0xFC, 0x04), (0xF8, 0x08), (0xF0, 0x10), (0xE0, 0x20), (0xC0, 0x40), (0xC0, 0x80)]

/-- No code of a reserved row has a handler (40_segments R97). -/
theorem refusalOf_reserved : ∀ row ∈ reservedRows, ∀ code : Byte, codeFits row.1 row.2 code = true → refusalOf code = some .e1 := by
  intro row mem
  fin_cases mem <;> decide +kernel

theorem refusalOf_rst : ∀ n : BitVec 3, refusalOf (Instr.rst n).codeByte = some .e2 := by decide

/-- A refused code's instruction raises the error of the code: the rows of several codes by their ranges, every other row by its entry. -/
theorem exec_of_refusalOf {i : Instr} {e : Err} (wellFormed : i.wellFormed = true) (marker : i.kind = .marker)
    (refused : refusalOf i.codeByte = some e) (s : State) : exec i s = refuseMarker e s := by
  have ranged : ∀ {e' : Err}, refusalOf i.codeByte = some e' → refuseMarker e' s = refuseMarker e s := fun h =>
    congrArg (refuseMarker · s) (Option.some.inj (h.symm.trans refused))
  cases i with
  | reserved02_03 code => exact ranged (refusalOf_reserved (0xFE, 0x02) (by decide) code wellFormed)
  | reserved04_07 code => exact ranged (refusalOf_reserved (0xFC, 0x04) (by decide) code wellFormed)
  | reserved08_0F code => exact ranged (refusalOf_reserved (0xF8, 0x08) (by decide) code wellFormed)
  | reserved10_1F code => exact ranged (refusalOf_reserved (0xF0, 0x10) (by decide) code wellFormed)
  | reserved20_3F code => exact ranged (refusalOf_reserved (0xE0, 0x20) (by decide) code wellFormed)
  | reserved40_7F code => exact ranged (refusalOf_reserved (0xC0, 0x40) (by decide) code wellFormed)
  | reserved80_BF code => exact ranged (refusalOf_reserved (0xC0, 0x80) (by decide) code wellFormed)
  | rst n => exact ranged (refusalOf_rst n)
  | _ => cases marker <;> cases refused <;> rfl

/-- Settles O13: the instruction of a refused code is the refusal with the code's error. -/
theorem refusedMarkersRaise : Obligations.RefusedMarkersRaise := fun s _ _ wellFormed marker refused =>
  exec_of_refusalOf wellFormed marker refused s

/-! ### Segments -/

/-- Settles O14: every handler's frame raises before its body reads the payload. -/
theorem shortLengthRaisesE3 : Obligations.ShortLengthRaisesE3 := by
  intro s i len handler supplied length short
  obtain ⟨body, hbody⟩ := exec_handler_eq_withSegment handler
  have fetched : segFetch s.dec = .badLength := segFetch_badLength.2 ⟨supplied, len, length, short⟩
  rw [hbody, withSegment, fetched]
  rfl

/-- The value of a 2-byte field (30_encoding R87). -/
theorem fieldU16_toNat (p : List Byte) (i : Nat) : (fieldU16 p i).toNat = (byteAt p i).toNat * 256 + (byteAt p (i + 1)).toNat := by
  rw [fieldU16, BitVec.toNat_append, ← Nat.shiftLeft_add_eq_or_of_lt (byteAt p (i + 1)).isLt, Nat.shiftLeft_eq]

/-- Settles O23: in its own state each handler is its body on the payload. -/
theorem app0AndComSegments : Obligations.App0AndComSegments := by
  intro s p at_pos
  refine ⟨fun seg jfif header thumbnail => ⟨fieldU16 p 8, fieldU16 p 10, fieldU16_toNat p 8, fieldU16_toNat p 10, ?_⟩,
    fun seg jfif short => ?_, fun seg other => ?_, fun seg => inHandler_of_segment seg at_pos _ _⟩
    <;> refine (inHandler_of_segment seg at_pos _ _).trans ?_
  · have fields : jfifFields p = some ((byteAt p 5, byteAt p 6), ⟨byteAt p 7, fieldU16 p 8, fieldU16 p 10⟩) := by
      rw [jfifFields, if_neg (Nat.not_lt.2 header), if_neg (Nat.not_lt.2 thumbnail)]
    rw [app0Body, if_pos jfif, fields]
    rfl
  · have fields : jfifFields p = none := by
      unfold jfifFields
      rcases short with header | thumbnail
      · rw [if_pos header]
      · rw [if_pos thumbnail, ite_self]
    rw [app0Body, if_pos jfif, fields]
    rfl
  · exact if_neg other

end Sys2Proof.Machine
end

section
/-! SUPPORT. The first bad entry of a table segment (40_segments R98, R101, R113). -/

namespace Sys2Proof.Machine

/-! ### DQT -/

/-- The whole, legal entries of a payload are written, and the reading goes on at the rest. -/
theorem dqtEntries_payload (es : List (Fin 4 × Vector Byte 64)) (r : List Byte) (qt : Vector QTable 4) :
    dqtEntries (quantPayload es ++ r).length (quantPayload es ++ r) qt
      = dqtEntries ((quantPayload es).length - es.length + r.length) r (es.foldl loadQuant qt) := by
  have length : es.length ≤ (quantPayload es).length := length_le_entries _ _ es
  rw [← dqtEntries_load, List.length_append, ← Nat.add_assoc, Nat.add_sub_cancel' length]

/-- The error of the first check that the entry beginning with `b` does not pass: its precision, its destination, its 64 bytes (R98). -/
def QuantEntryFails (b : Byte) (rest : List Byte) (e : Err) : Prop :=
  hiNibble b ≠ 0 ∧ e = .e4 ∨ hiNibble b = 0 ∧ 3 < (loNibble b).toNat ∧ e = .e5
    ∨ hiNibble b = 0 ∧ (loNibble b).toNat ≤ 3 ∧ rest.length < 64 ∧ e = .e3

theorem dqtEntries_stop {b : Byte} {rest : List Byte} {e : Err} (failure : QuantEntryFails b rest e) (fuel : Nat) (qt : Vector QTable 4) :
    dqtEntries (fuel + 1) (b :: rest) qt = (qt, some e) := by
  rw [dqtEntries]
  rcases failure with ⟨precision, rfl⟩ | ⟨precision, dest, rfl⟩ | ⟨precision, dest, short, rfl⟩
  · rw [if_pos precision]
  · rw [if_neg (not_not_intro precision), if_pos dest]
  · rw [if_neg (not_not_intro precision), if_neg (Nat.not_lt.2 dest), if_pos short]

/-- Settles O16: the entries before the bad one are written one after another. -/
theorem dqtRaisesOnBadEntry : Obligations.DqtRaisesOnBadEntry := by
  intro s es r e seg at_pos failure
  refine ⟨es.foldl loadQuant s.dec.qt, quantLoaded_foldl _ _, (inHandler_of_segment seg at_pos _ _).trans ?_⟩
  rcases failure with ⟨rfl, rfl, rfl⟩ | ⟨b, rest, rfl, failure⟩
  · rfl
  · have entries := (dqtEntries_payload es (b :: rest) s.dec.qt).trans (dqtEntries_stop failure _ _)
    rw [dqtBody, if_neg (by simp), entries]
    rfl

/-! ### DHT -/

theorem dhtEntries_payload {es : List HuffSpec} (legal : ∀ e ∈ es, e.ok) (r : List Byte) (d : Decoder) :
    dhtEntries (huffPayload es ++ r).length (huffPayload es ++ r) d
      = dhtEntries ((huffPayload es).length - es.length + r.length) r (es.foldl loadHuff d) := by
  have length : es.length ≤ (huffPayload es).length := length_le_entries _ _ es
  rw [← dhtEntries_load _ legal, List.length_append, ← Nat.add_assoc, Nat.add_sub_cancel' length]

/-- The error of the first check that the entry beginning with `b` does not pass: the bytes of its counts, its class and destination, its
symbols, its code space (R101). -/
def HuffEntryFails (b : Byte) (rest : List Byte) (e : Err) : Prop :=
  rest.length < 16 ∧ e = .e3
    ∨ 16 ≤ rest.length ∧ (1 < (hiNibble b).toNat ∨ 3 < (loNibble b).toNat) ∧ e = .e14
    ∨ ∃ counts : Vector Byte 16, (hiNibble b).toNat ≤ 1 ∧ (loNibble b).toNat ≤ 3 ∧ rest.take 16 = counts.toList
      ∧ (rest.length < 16 + countTotal counts ∧ e = .e3
        ∨ 16 + countTotal counts ≤ rest.length ∧ huffBuild counts ((rest.drop 16).take (countTotal counts)) = none ∧ e = .e15)

theorem dhtEntries_stop {b : Byte} {rest : List Byte} {e : Err} (failure : HuffEntryFails b rest e) (fuel : Nat) (d : Decoder) :
    dhtEntries (fuel + 1) (b :: rest) d = (d, some e) := by
  rw [dhtEntries]
  rcases failure with ⟨short, rfl⟩ | ⟨long, target, rfl⟩ | ⟨counts, cls, dest, taken, failure⟩
  · exact if_pos short
  · exact (if_neg (Nat.not_lt.2 long)).trans (if_pos (by simpa using target))
  · have long : 16 ≤ rest.length := by
      have := congrArg List.length taken
      rw [List.length_take, Vector.length_toList] at this
      omega
    have read : countsOf rest = counts := by rw [← List.take_append_drop 16 rest, taken, countsOf_append]
    have legal : ¬(decide (1 < (hiNibble b).toNat) || decide (3 < (loNibble b).toNat)) = true := by simp; omega
    simp only [read]
    rw [if_neg (Nat.not_lt.2 long), if_neg legal]
    rcases failure with ⟨short, rfl⟩ | ⟨whole, overfull, rfl⟩
    · rw [if_pos short]
    · rw [if_neg (Nat.not_lt.2 whole), overfull]

/-- Settles O20: the entries before the bad one are built and written one after another. -/
theorem dhtRaisesOnBadEntry : Obligations.DhtRaisesOnBadEntry := by
  intro s es r e seg legal at_pos failure
  obtain ⟨dc, ac, loaded⟩ := foldl_loadHuff_eq es s.dec
  refine ⟨dc, ac, loaded ▸ huffLoaded_foldl s.dec legal, (inHandler_of_segment seg at_pos _ _).trans ?_⟩
  rw [← loaded]
  rcases failure with ⟨rfl, rfl, rfl⟩ | ⟨b, rest, rfl, failure⟩
  · rfl
  · have entries := (dhtEntries_payload legal (b :: rest) s.dec).trans (dhtEntries_stop failure _ _)
    rw [dhtBody, if_neg (by simp), entries]
    rfl

end Sys2Proof.Machine
end

section
/-! SUPPORT. An accepted scan header (40_segments R102, R103): its payload's fields (30_encoding R76), its entries, and the component
registers it writes. -/

namespace Sys2Proof.Machine

/-! ### The fields of a scan header -/

/-- The bytes of a component specification (R76). -/
def scanSpecBytes (c : ScanSpec) : List Byte := [c.id, BitVec.ofNat 8 (16 * c.td.val + c.ta.val)]

theorem scanPayload_eq (cs : List ScanSpec) : scanPayload cs = BitVec.ofNat 8 cs.length :: (cs.flatMap scanSpecBytes ++ [0, 63, 0]) := rfl

theorem scanPayload_length (cs : List ScanSpec) : (scanPayload cs).length = 4 + 2 * cs.length := by
  rw [scanPayload_eq, List.length_cons, List.length_append, length_blocks (w := 2) fun _ => rfl, List.length_cons, List.length_cons,
    List.length_singleton]
  omega

theorem scanPayload_count {cs : List ScanSpec} (h : cs.length < 256) : (byteAt (scanPayload cs) 0).toNat = cs.length :=
  (BitVec.toNat_ofNat _ _).trans (Nat.mod_eq_of_lt h)

theorem scanPayload_range (cs : List ScanSpec) : (scanPayload cs).drop (1 + 2 * cs.length) = [0, 63, 0] := by
  rw [scanPayload_eq, Nat.add_comm, List.drop_succ_cons, List.drop_left' (length_blocks (w := 2) (fun _ => rfl) cs)]

theorem scanPayload_spec {cs : List ScanSpec} {j : Nat} {c : ScanSpec} (at_j : cs[j]? = some c) :
    byteAt (scanPayload cs) (1 + 2 * j) = c.id ∧ byteAt (scanPayload cs) (2 + 2 * j) = BitVec.ofNat 8 (16 * c.td.val + c.ta.val) := by
  have field : ∀ {i : Nat} {b : Byte}, i < 2 → (scanSpecBytes c)[i]? = some b → byteAt (scanPayload cs) (2 * j + i + 1) = b :=
    fun {i b} hi hb => byteAt_of_getElem? <| by
      have inside := getElem?_blocks (block := scanSpecBytes) (fun _ => rfl) at_j hi
      rw [scanPayload_eq, List.getElem?_cons_succ,
        List.getElem?_append_left (List.getElem?_eq_some_iff.1 (inside.trans hb)).1, inside, hb]
  rw [Nat.add_comm 1, Nat.add_comm 2]
  exact ⟨field (i := 0) (by decide) rfl, field (i := 1) (by decide) rfl⟩

/-! ### The entries of a scan header -/

/-- The component with the identifier of specification `j`, when the frame's identifiers are distinct (R99). -/
theorem scanComp_of_id {d : Decoder} {p : List Byte} {i j : Nat} {k : Component} (nodup : (d.comps.map Component.id).Nodup)
    (at_i : d.comps[i]? = some k) (id : k.id = byteAt p (1 + 2 * j)) : scanComp d p j = some i := by
  obtain ⟨hi, rfl⟩ := List.getElem?_eq_some_iff.1 at_i
  refine List.findIdx?_eq_some_iff_getElem.2 ⟨hi, beq_iff_eq.2 id, fun i' earlier same => Nat.ne_of_lt earlier ?_⟩
  refine (List.Nodup.getElem_inj_iff nodup (hi := by simpa using earlier.trans hi) (hj := by simpa using hi)).1 ?_
  simpa using (beq_iff_eq.1 same).trans id.symm

section Accepted

/-! A scan header that names each component of `order` in turn, with defined tables. -/

variable {d : Decoder} {cs : List ScanSpec} {order : List Nat} (nodup : (d.comps.map Component.id).Nodup) (length : order.length = cs.length)
  (named : ∀ (j i : Nat) (c : ScanSpec), cs[j]? = some c → order[j]? = some i → ∃ k, d.comps[i]? = some k ∧ k.id = c.id)

include nodup named

theorem scanComp_payload {j i : Nat} {c : ScanSpec} (at_j : cs[j]? = some c) (order_j : order[j]? = some i) :
    scanComp d (scanPayload cs) j = some i := by
  obtain ⟨k, at_i, id⟩ := named j i c at_j order_j
  exact scanComp_of_id nodup at_i (id.trans (scanPayload_spec at_j).1.symm)

theorem scanEntry_payload {j i : Nat} {c : ScanSpec} (at_j : cs[j]? = some c) (order_j : order[j]? = some i) :
    scanEntry d (scanPayload cs) j = ⟨i, c.td, c.ta⟩ := by
  obtain ⟨high, low⟩ := nibbles_ofNat (h := c.td.val) (l := c.ta.val) (by omega) (by omega)
  rw [scanEntry, scanComp_payload nodup named at_j order_j, (scanPayload_spec at_j).2, high, low, Fin.ofNat_val_eq_self, Fin.ofNat_val_eq_self]
  rfl

include length

theorem scanSpecOk_payload (distinct : order.Nodup)
    (tables : ∀ c ∈ cs, d.dcTables[c.td].defined = true ∧ d.acTables[c.ta].defined = true) {j : Nat} (hj : j < cs.length) :
    ScanSpecOk d (scanPayload cs) j := by
  have comp : ∀ {j : Nat} (hj : j < order.length), scanComp d (scanPayload cs) j = some order[j] := fun hj =>
    scanComp_payload nodup named (List.getElem?_eq_getElem (length ▸ hj)) (List.getElem?_eq_getElem hj)
  have hj' : j < order.length := length ▸ hj
  obtain ⟨high, low⟩ := nibbles_ofNat (h := cs[j].td.val) (l := cs[j].ta.val) (by omega) (by omega)
  refine ⟨scanComp_isSome.1 (comp hj' ▸ rfl), ?_, cs[j].td, cs[j].ta, ?_, ?_, tables _ (List.getElem_mem hj)⟩
  · rintro ⟨j', earlier, same⟩
    have again := (comp (earlier.trans hj')).symm.trans ((scanComp_eq_iff (comp hj')).2 same)
    exact Nat.ne_of_lt earlier (distinct.getElem_inj_iff.1 (Option.some.inj again))
  · rw [(scanPayload_spec (List.getElem?_eq_getElem hj)).2, high]
  · rw [(scanPayload_spec (List.getElem?_eq_getElem hj)).2, low]

/-- The entries of the header name the components of `order` in turn (R102). -/
theorem scanEntries_payload_comps :
    ((List.range' 0 cs.length).map (scanEntry d (scanPayload cs))).map ScanEntry.comp = order := by
  refine List.ext_getElem (by simp [length]) fun j _ hj => ?_
  have entry := scanEntry_payload nodup named (List.getElem?_eq_getElem (length ▸ hj)) (List.getElem?_eq_getElem hj)
  simp [entry]

/-- The header's checks accept the payload. -/
theorem checkScan_payload (present : d.framePresent = true) (first : d.scanPresent = false) (baseline : d.mode = .baseline)
    (count : cs.length = d.nf) (few : cs.length < 256) (distinct : order.Nodup)
    (tables : ∀ c ∈ cs, d.dcTables[c.td].defined = true ∧ d.acTables[c.ta].defined = true) :
    checkScan d (scanPayload cs) = .ok ((List.range' 0 cs.length).map (scanEntry d (scanPayload cs))) := by
  have entries : scanEntriesFrom d (scanPayload cs) cs.length 0 = .ok ((List.range' 0 cs.length).map (scanEntry d (scanPayload cs))) :=
    read_all (fun _ => rfl) scanEntriesFrom_next fun j hj => scanSpecOk_payload nodup length named distinct tables (by omega)
  have nonempty : scanPayload cs ≠ [] := List.cons_ne_nil _ _
  rw [checkScan_baseline present first baseline, if_neg nonempty, scanPayload_count few, if_neg (not_not_intro count),
    if_neg (not_not_intro (scanPayload_length cs)), entries]
  exact if_pos (scanPayload_range cs)

end Accepted

/-! ### The component registers -/

/-- The commit resets a component and gives it the table selectors of the one entry that names it (R103). -/
theorem commit_comp_of_mem {cs : List Component} {es : List ScanEntry} {e : ScanEntry} {k : Component} (distinct : (es.map ScanEntry.comp).Nodup)
    (mem : e ∈ es) (named : cs[e.comp]? = some k) :
    (assignTables (cs.map Component.startScan) es)[e.comp]? = some { k with pred := 0, du := 0, td := e.td, ta := e.ta } := by
  have found : es.reverse.find? (fun e' => e'.comp == e.comp) = some e := by
    cases h : es.reverse.find? fun e' => e'.comp == e.comp with
    | none => exact absurd (beq_self_eq_true e.comp) (List.find?_eq_none.1 h e (List.mem_reverse.2 mem))
    | some e' =>
      have same : e'.comp = e.comp := by simpa using List.find?_some h
      rw [List.inj_on_of_nodup_map distinct (List.mem_reverse.1 (List.mem_of_find?_eq_some h)) mem same]
  rw [assignTables_get, List.getElem?_map, named, found]
  rfl

/-- Settles O21: the payload passes the checks, and its entries name the components of `order`. -/
theorem scanHeaderCommits : Obligations.ScanHeaderCommits := by
  intro s cs order seg at_pos present first baseline _ count few nodup length distinct named tables
  have checked := checkScan_payload nodup length named present first baseline count (count ▸ few) distinct tables
  have comps := scanEntries_payload_comps nodup length named
  refine ⟨assignTables (s.dec.comps.map Component.startScan) ((List.range' 0 cs.length).map (scanEntry s.dec (scanPayload cs))), ?_,
    (assignTables_length _ _).trans (List.length_map _), fun j i c k at_j order_j at_i => ?_⟩
  · refine (inHandler_of_segment seg at_pos _ _).trans ?_
    rw [sosBody, checked]
    simp only [commitScan, comps, List.length_map, List.length_range']
    rfl
  · have entry := scanEntry_payload nodup named at_j order_j
    have mem : (⟨i, c.td, c.ta⟩ : ScanEntry) ∈ (List.range' 0 cs.length).map (scanEntry s.dec (scanPayload cs)) :=
      List.mem_map.2 ⟨j, by simpa using (List.getElem?_eq_some_iff.1 at_j).1, entry⟩
    exact commit_comp_of_mem (comps ▸ distinct) mem at_i

end Sys2Proof.Machine
end

section
/-! SUPPORT. The canonical build (41_huffman R114 to R116): the codes of one length, when the counts fit the code space, and the order of the
codes, from which it follows that no code begins another and that each decodes to its symbol. -/

namespace Sys2Proof.Machine

/-! ### The codes of one length -/

/-- `n` codes of length `l`, consecutive from `code` on, for the first symbols (41_huffman R114). -/
def lengthCodes (l n code : Nat) (syms : List Byte) : List HuffCode :=
  (List.range n).map fun i => ⟨syms.getD i 0, BitVec.ofNat 16 (code + i), l⟩

@[simp] theorem length_lengthCodes (l n code : Nat) (syms : List Byte) : (lengthCodes l n code syms).length = n := by
  simp [lengthCodes]

theorem lengthCodes_succ (l n code : Nat) (syms : List Byte) :
    lengthCodes l (n + 1) code syms = ⟨syms.headD 0, BitVec.ofNat 16 code, l⟩ :: lengthCodes l n (code + 1) syms.tail := by
  cases syms <;> simp [lengthCodes, List.range_succ_eq_map, Nat.add_assoc, Nat.add_comm 1]

theorem lengthCodes_symbols {l n code : Nat} {syms : List Byte} (h : n ≤ syms.length) :
    (lengthCodes l n code syms).map HuffCode.symbol = syms.take n := by
  refine List.ext_getElem (by simp [h]) fun i hi _ => ?_
  have : i < syms.length := by simp at hi; omega
  simp [lengthCodes, this]

theorem width_of_mem_lengthCodes {l n code : Nat} {syms : List Byte} {c : HuffCode} (h : c ∈ lengthCodes l n code syms) : c.width = l := by
  obtain ⟨_, _, rfl⟩ := List.mem_map.1 h
  rfl

/-- The codes of one length are consecutive. -/
theorem lengthCodes_code {l n code i : Nat} {syms : List Byte} {c : HuffCode} (short : l ≤ 16) (fits : code + n ≤ 2 ^ l)
    (h : (lengthCodes l n code syms)[i]? = some c) : i < n ∧ c.width = l ∧ c.code.toNat = code + i := by
  obtain ⟨hi, rfl⟩ := List.getElem?_eq_some_iff.1 h
  have small : 2 ^ l ≤ 2 ^ 16 := Nat.pow_le_pow_right (by decide) short
  rw [length_lengthCodes] at hi
  simp only [lengthCodes, List.getElem_map, List.getElem_range, BitVec.toNat_ofNat]
  exact ⟨hi, trivial, Nat.mod_eq_of_lt (by omega)⟩

theorem lengthCodes_getLast? {l n code : Nat} {syms : List Byte} : (lengthCodes l n code syms).getLast?.map HuffCode.width
    = if n = 0 then none else some l := by
  cases n <;> simp [lengthCodes, List.range_succ]

/-- From a code that is in the code space, `assignLength` fails exactly when the codes leave it. -/
theorem assignLength_eq {l n code : Nat} {syms : List Byte} (start : code ≤ 2 ^ l) :
    assignLength l n code syms
      = if code + n ≤ 2 ^ l then some (lengthCodes l n code syms, code + n, syms.drop n) else none := by
  induction n generalizing code syms with
  | zero => simp [assignLength, lengthCodes, start]
  | succ n ih =>
    rw [assignLength]
    by_cases full : 2 ^ l ≤ code
    · rw [if_pos full, if_neg (by omega)]
    · rw [if_neg full, ih (by omega), Nat.add_right_comm, Nat.add_assoc, lengthCodes_succ]
      by_cases room : code + (n + 1) ≤ 2 ^ l <;> simp [room]

/-! ### The codes of every length -/

theorem assignCodes_cons {l code : Nat} {n : Byte} {counts syms : List Byte} (start : code ≤ 2 ^ l) :
    assignCodes l (n :: counts) code syms
      = if code + n.toNat ≤ 2 ^ l then
          (assignCodes (l + 1) counts ((code + n.toNat) * 2) (syms.drop n.toNat)).map (lengthCodes l n.toNat code syms ++ ·)
        else none := by
  rw [assignCodes, assignLength_eq start]
  by_cases fits : code + n.toNat ≤ 2 ^ l
  · simp only [if_pos fits]
    cases assignCodes (l + 1) counts ((code + n.toNat) * 2) (syms.drop n.toNat) <;> rfl
  · simp only [if_neg fits]

/-- What a build that stays in the code space assigns from length `l` on (41_huffman R114). -/
inductive Assigned : Nat → List Byte → Nat → List Byte → List HuffCode → Prop
  | nil {l code : Nat} {syms : List Byte} : Assigned l [] code syms []
  | cons {l code : Nat} {n : Byte} {counts syms : List Byte} {codes : List HuffCode} (fits : code + n.toNat ≤ 2 ^ l)
      (longer : Assigned (l + 1) counts ((code + n.toNat) * 2) (syms.drop n.toNat) codes) :
      Assigned l (n :: counts) code syms (lengthCodes l n.toNat code syms ++ codes)

theorem assigned_of_assignCodes {l code : Nat} {counts syms : List Byte} {codes : List HuffCode} (start : code ≤ 2 ^ l)
    (h : assignCodes l counts code syms = some codes) : Assigned l counts code syms codes := by
  induction counts generalizing l code syms codes with
  | nil =>
    cases h
    exact .nil
  | cons n counts ih =>
    rw [assignCodes_cons start] at h
    split at h
    · obtain ⟨longer, rest, rfl⟩ := Option.map_eq_some_iff.1 h
      exact .cons ‹_› (ih (by omega) rest)
    · cases h

section
variable {l code : Nat} {counts syms : List Byte} {codes : List HuffCode}

theorem Assigned.symbols (h : Assigned l counts code syms codes) (count : syms.length = (counts.map BitVec.toNat).sum) :
    codes.map HuffCode.symbol = syms := by
  induction h with
  | nil => exact (List.length_eq_zero_iff.1 count).symm
  | cons _ _ ih =>
    rw [List.map_cons, List.sum_cons] at count
    rw [List.map_append, lengthCodes_symbols (by omega), ih (by rw [List.length_drop]; omega), List.take_append_drop]

/-- The code is at least `l` bits long, and its first `l` bits are `code` or greater. -/
def HuffCode.From (l code : Nat) (c : HuffCode) : Prop := l ≤ c.width ∧ code * 2 ^ (c.width - l) ≤ c.code.toNat

theorem HuffCode.From.mono {l a b : Nat} {c : HuffCode} (h : c.From l b) (le : a ≤ b) : c.From l a :=
  ⟨h.1, (Nat.mul_le_mul_right _ le).trans h.2⟩

theorem HuffCode.From.of_next {l a : Nat} {c : HuffCode} (h : c.From (l + 1) (a * 2)) : c.From l a := by
  obtain ⟨longer, above⟩ := h
  refine ⟨by omega, ?_⟩
  rwa [show c.width - l = c.width - (l + 1) + 1 by omega, Nat.pow_succ', ← Nat.mul_assoc]

/-- The canonical order: `c'` is no shorter, and its bits at the width of `c` are a greater number. -/
def HuffCode.Before (c c' : HuffCode) : Prop := c'.From c.width (c.code.toNat + 1)

theorem Assigned.bounds (h : Assigned l counts code syms codes) (short : l + counts.length ≤ 17) {c : HuffCode} (mem : c ∈ codes) :
    c.From l code ∧ c.width < l + counts.length ∧ c.code.toNat < 2 ^ c.width := by
  induction h with
  | nil => cases mem
  | cons fits _ ih =>
    rw [List.length_cons] at short ⊢
    rcases List.mem_append.1 mem with here | longer
    · obtain ⟨i, hi⟩ := List.mem_iff_getElem?.1 here
      obtain ⟨lt, rfl, value⟩ := lengthCodes_code (by omega) fits hi
      exact ⟨⟨le_rfl, by simp [value]⟩, by omega, by omega⟩
    · obtain ⟨above, width, value⟩ := ih (by omega) longer
      exact ⟨above.of_next.mono (by omega), by omega, value⟩

theorem Assigned.le_width (h : Assigned l counts code syms codes) (short : l + counts.length ≤ 17) {c : HuffCode} (mem : c ∈ codes) :
    l ≤ c.width :=
  (h.bounds short mem).1.1

theorem Assigned.ordered (h : Assigned l counts code syms codes) (short : l + counts.length ≤ 17) : codes.Pairwise HuffCode.Before := by
  induction h with
  | nil => exact .nil
  | cons fits longer ih =>
    rw [List.length_cons] at short
    refine List.pairwise_append.2 ⟨?_, ih (by omega), fun c hc c' hc' => ?_⟩
    · refine List.pairwise_iff_getElem.2 fun i j hi hj lt => ?_
      obtain ⟨-, width, value⟩ := lengthCodes_code (by omega) fits (List.getElem?_eq_getElem hi)
      obtain ⟨-, width', value'⟩ := lengthCodes_code (by omega) fits (List.getElem?_eq_getElem hj)
      refine ⟨by omega, ?_⟩
      rw [width, width', value, value', Nat.sub_self]
      omega
    · obtain ⟨i, hi⟩ := List.mem_iff_getElem?.1 hc
      obtain ⟨lt, rfl, value⟩ := lengthCodes_code (by omega) fits hi
      exact (longer.bounds (by omega) hc').1.of_next.mono (by omega)

theorem Assigned.count (h : Assigned l counts code syms codes) (short : l + counts.length ≤ 17) {i : Nat} {n : Byte}
    (count : counts[i]? = some n) : (codes.filter fun c => c.width == l + i).length = n.toNat := by
  induction h generalizing i with
  | nil => cases count
  | @cons l code m _ syms codes _ longer ih =>
    rw [List.length_cons] at short
    rw [List.filter_append, List.length_append]
    cases i with
    | zero =>
      cases count
      have here : (lengthCodes l n.toNat code syms).filter (fun c => c.width == l + 0) = lengthCodes l n.toNat code syms :=
        List.filter_eq_self.2 fun c hc => by simp [width_of_mem_lengthCodes hc]
      have none_longer : codes.filter (fun c => c.width == l + 0) = [] :=
        List.filter_eq_nil_iff.2 fun c hc => by simpa using Nat.ne_of_gt (longer.le_width (by omega) hc)
      rw [here, none_longer, length_lengthCodes, List.length_nil, Nat.add_zero]
    | succ i =>
      have none_here : (lengthCodes l m.toNat code syms).filter (fun c => c.width == l + (i + 1)) = [] :=
        List.filter_eq_nil_iff.2 fun c hc => by simp [width_of_mem_lengthCodes hc]
      rw [none_here, List.length_nil, Nat.zero_add, ← ih (by omega) count]
      simp only [Nat.add_assoc, Nat.add_comm 1]

/-- The longest length is the width of the last code. -/
theorem Assigned.longest (h : Assigned l counts code syms codes) (short : l + counts.length ≤ 17) :
    longestLength l counts = (codes.getLast?.map HuffCode.width).getD 0 := by
  induction h with
  | nil => rfl
  | @cons l code n _ syms codes _ longer ih =>
    rw [List.length_cons] at short
    rw [longestLength, ih (by omega), List.getLast?_append]
    rcases List.eq_nil_or_concat codes with rfl | ⟨init, last, rfl⟩
    · by_cases none_here : n.toNat = 0 <;> simp [lengthCodes_getLast?, ← BitVec.toNat_inj, none_here]
    · have longer_last := longer.le_width (by omega) (c := last) (by simp)
      simp only [List.concat_eq_append, List.getLast?_concat, Option.some_or, Option.map_some, Option.getD_some]
      split
      · omega
      · rfl

end

/-! ### The table -/

section
variable {counts : Vector Byte 16} {syms : List Byte} {t : HuffTable}

theorem huffBuild_some (h : huffBuild counts syms = some t) :
    Assigned 1 counts.toList 0 syms t.codes ∧ t.lmax = longestLength 1 counts.toList ∧ t.sentinel = sentinelOf t.lmax := by
  rw [huffBuild] at h
  split at h <;> cases h
  exact ⟨assigned_of_assignCodes (Nat.zero_le _) ‹_›, rfl, rfl⟩

theorem lengths_short (counts : Vector Byte 16) : 1 + counts.toList.length ≤ 17 := by simp

theorem huffBuild_ordered (h : huffBuild counts syms = some t) : t.codes.Pairwise HuffCode.Before :=
  (huffBuild_some h).1.ordered (lengths_short counts)

/-- The width of the last code is the longest length. -/
theorem huffBuild_last {init : List HuffCode} {last : HuffCode} (h : huffBuild counts syms = some t) (codes : t.codes = init ++ [last]) :
    t.lmax = last.width := by
  obtain ⟨assigned, lmax, -⟩ := huffBuild_some h
  rw [lmax, assigned.longest (lengths_short counts), codes]
  simp

theorem huffBuild_empty (h : huffBuild counts syms = some t) (codes : t.codes = []) : t.lmax = 0 := by
  obtain ⟨assigned, lmax, -⟩ := huffBuild_some h
  rw [lmax, assigned.longest (lengths_short counts), codes]
  rfl

/-- The bits of a later code that stand where the earlier code's do are a greater number. -/
theorem HuffCode.Before.leadingBits_ne {c c' : HuffCode} (h : c.Before c') : c'.code.toNat / 2 ^ (c'.width - c.width) ≠ c.code.toNat :=
  Nat.ne_of_gt ((Nat.le_div_iff_mul_le (Nat.two_pow_pos _)).2 h.2)

theorem HuffCode.Before.code_ne {c c' : HuffCode} (h : c.Before c') : (c.code, c.width) ≠ (c'.code, c'.width) := by
  intro same
  obtain ⟨code, width⟩ := Prod.mk.inj same
  exact h.leadingBits_ne (by simp [code, width])

/-- Of two codes in canonical order neither begins the other. -/
theorem HuffCode.leadingBits_ne_of_ordered {codes : List HuffCode} (ordered : codes.Pairwise HuffCode.Before) {i j : Nat} {c c' : HuffCode} (ne : i ≠ j)
    (hi : codes[i]? = some c) (hj : codes[j]? = some c') (le : c.width ≤ c'.width) :
    c'.code.toNat / 2 ^ (c'.width - c.width) ≠ c.code.toNat := by
  obtain ⟨in_i, rfl⟩ := List.getElem?_eq_some_iff.1 hi
  obtain ⟨in_j, rfl⟩ := List.getElem?_eq_some_iff.1 hj
  rcases Nat.lt_or_gt_of_ne ne with lt | gt
  · exact (List.pairwise_iff_getElem.1 ordered i j in_i in_j lt).leadingBits_ne
  · have before := List.pairwise_iff_getElem.1 ordered j i in_j in_i gt
    have width : codes[i].width = codes[j].width := Nat.le_antisymm le before.1
    have same := before.leadingBits_ne
    rw [width, Nat.sub_self, Nat.pow_zero, Nat.div_one] at same ⊢
    exact same.symm

end

/-- Settles O38: by their order no code begins another, and the last code is the longest. -/
theorem builtCodesArePrefixFree : Obligations.BuiltCodesArePrefixFree := by
  intro counts syms t count built
  obtain ⟨assigned, -, sentinel⟩ := huffBuild_some built
  have ordered := huffBuild_ordered built
  refine ⟨assigned.symbols count, fun c mem => ?_, fun l => ?_, fun _ _ _ _ => HuffCode.leadingBits_ne_of_ordered ordered, ?_⟩
  · obtain ⟨⟨positive, -⟩, width, value⟩ := assigned.bounds (lengths_short counts) mem
    exact ⟨positive, by simpa [Nat.add_comm 1, Nat.lt_succ_iff] using width, value⟩
  · rw [Nat.add_comm]
    exact assigned.count (lengths_short counts) (by simp)
  rcases List.eq_nil_or_concat t.codes with empty | ⟨init, last, codes⟩
  · simp [sentinel, huffBuild_empty built empty, empty, sentinelOf]
  · rw [List.concat_eq_append] at codes
    have lmax := huffBuild_last built codes
    have positive : 1 ≤ last.width := assigned.le_width (lengths_short counts) (by simp [codes])
    refine ⟨fun c mem => ?_, fun _ => ⟨⟨last, by simp [codes], lmax.symm⟩, ?_⟩, fun empty => by simp [codes] at empty⟩
    · rw [codes] at mem ordered
      rcases List.mem_append.1 mem with earlier | here
      · exact lmax ▸ ((List.pairwise_append.1 ordered).2.2 c earlier last (List.mem_singleton_self _)).1
      · rw [lmax, List.mem_singleton.1 here]
    · rw [sentinel, sentinelOf, if_neg (by omega)]

/-! ### Lookup -/

theorem huffStep_eq_symbol {t : HuffTable} {code : U16} {width : Nat} {v : Byte} (found : lookupCode t code width = some v)
    (ne : t.sentinel ≠ some (code, width)) : huffStep t code width = .symbol v := by
  rw [huffStep, if_neg ne, found]

theorem huffStep_eq_more {t : HuffTable} {code : U16} {width : Nat} (missing : lookupCode t code width = none)
    (ne : t.sentinel ≠ some (code, width)) (short : width ≠ 16) : huffStep t code width = .more := by
  rw [huffStep, if_neg ne, missing]
  exact if_neg short

theorem huffStep_eq_collision {t : HuffTable} {code : U16} {width : Nat} (found : (lookupCode t code width).isSome = true)
    (eq : t.sentinel = some (code, width)) : huffStep t code width = .error .e41 := by
  obtain ⟨v, found⟩ := Option.isSome_iff_exists.1 found
  rw [huffStep, if_pos eq, found]

theorem huffStep_eq_noCode {t : HuffTable} {code : U16} {width : Nat} (missing : lookupCode t code width = none)
    (h : t.sentinel = some (code, width) ∨ width = 16) : huffStep t code width = .error .e32 := by
  rw [huffStep, missing]
  rcases h with h | h <;> simp [h]

/-- The codes of a built table are distinct, so the one found is the one looked up. -/
theorem lookupCode_of_mem {counts : Vector Byte 16} {syms : List Byte} {t : HuffTable} {c : HuffCode} (built : huffBuild counts syms = some t)
    (mem : c ∈ t.codes) : lookupCode t c.code c.width = some c.symbol := by
  have distinct : (t.codes.map fun c => (c.code, c.width)).Nodup :=
    List.pairwise_map.2 ((huffBuild_ordered built).imp HuffCode.Before.code_ne)
  rw [lookupCode]
  cases found : t.codes.find? fun c' => c'.code == c.code && c'.width == c.width with
  | none => simpa using List.find?_eq_none.1 found c mem
  | some c' =>
    have same : (c'.code, c'.width) = (c.code, c.width) := by simpa using List.find?_some found
    rw [List.inj_on_of_nodup_map distinct (List.mem_of_find?_eq_some found) mem same]
    rfl

/-- Settles O40: the lookup finds the code itself. -/
theorem codesDecodeToTheirSymbols : Obligations.CodesDecodeToTheirSymbols := by
  intro counts syms t c _ built mem
  have found := lookupCode_of_mem built mem
  exact ⟨huffStep_eq_symbol found, huffStep_eq_collision (Option.isSome_of_eq_some found)⟩

/-! ### Over-subscription -/

/-- The first code past those of the length `m` places on, when `code` is the first code (41_huffman R114). -/
def codesEnd (code : Nat) (counts : List Byte) (m : Nat) : Nat :=
  code * 2 ^ m + ∑ i ∈ Finset.range (m + 1), (counts.getD i 0).toNat * 2 ^ (m - i)

theorem codesEnd_zero (code : Nat) (n : Byte) (counts : List Byte) : codesEnd code (n :: counts) 0 = code + n.toNat := by
  simp [codesEnd]

theorem codesEnd_succ (code : Nat) (n : Byte) (counts : List Byte) (m : Nat) :
    codesEnd code (n :: counts) (m + 1) = codesEnd ((code + n.toNat) * 2) counts m := by
  rw [codesEnd, codesEnd, Finset.sum_range_succ' _ (m + 1)]
  simp only [List.getD_cons_succ, List.getD_cons_zero, Nat.add_sub_add_right, Nat.sub_zero]
  ring

theorem assignCodes_none_iff {l code : Nat} {counts syms : List Byte} (start : code ≤ 2 ^ l) :
    assignCodes l counts code syms = none ↔ ∃ m < counts.length, 2 ^ (l + m) < codesEnd code counts m := by
  induction counts generalizing l code syms with
  | nil => simp [assignCodes]
  | cons n counts ih =>
    rw [assignCodes_cons start, List.length_cons, Nat.exists_lt_succ_left, codesEnd_zero]
    by_cases fits : code + n.toNat ≤ 2 ^ l
    · rw [if_pos fits, Option.map_eq_none_iff, ih (by omega)]
      simp [Nat.not_lt.2 fits, codesEnd_succ, Nat.add_assoc, Nat.add_comm 1]
    · simp [fits, Nat.lt_of_not_le fits]

theorem codesEnd_eq_sum (counts : Vector Byte 16) {m : Nat} (short : m < 16) :
    codesEnd 0 counts.toList m
      = ((List.finRange 16).map fun i => if i.val < m + 1 then (counts[i]).toNat * 2 ^ (m - i.val) else 0).sum := by
  have lengths : Finset.range (m + 1) = (Finset.range 16).filter (· < m + 1) := by
    ext
    simp only [Finset.mem_range, Finset.mem_filter]
    omega
  rw [codesEnd, Nat.zero_mul, Nat.zero_add, lengths, Finset.sum_filter, ← Fin.sum_univ_def,
    ← Fin.sum_univ_eq_sum_range fun i => if i < m + 1 then (counts.toList.getD i 0).toNat * 2 ^ (m - i) else 0]
  simp

theorem huffBuild_none_iff {counts : Vector Byte 16} {syms : List Byte} :
    huffBuild counts syms = none ↔ assignCodes 1 counts.toList 0 syms = none := by
  rw [huffBuild]
  cases assignCodes 1 counts.toList 0 syms <;> simp

/-- Settles O39: the build fails at the first length whose codes end past the code space. -/
theorem buildFailsOnOversubscription : Obligations.BuildFailsOnOversubscription := by
  intro counts syms
  rw [huffBuild_none_iff, assignCodes_none_iff (Nat.zero_le _), Vector.length_toList]
  constructor
  · rintro ⟨m, short, above⟩
    refine ⟨m + 1, by omega, by omega, ?_⟩
    rwa [Nat.add_comm 1, codesEnd_eq_sum counts short] at above
  · rintro ⟨_ | m, positive, short, above⟩
    · cases positive
    · exact ⟨m, short, by rwa [Nat.add_comm 1, codesEnd_eq_sum counts short]⟩

/-! ### A bit of a code -/

/-- The bit reader leaves the partial code and the tables as they are (42_entropy R125). -/
theorem readBit_code {d d' : Decoder} {b : Bool} (h : readBit d = .bit b d') :
    d'.k = d.k ∧ d'.hcode = d.hcode ∧ d'.hwidth = d.hwidth ∧ ∀ c, currentTable d' c = currentTable d c := by
  rcases readBit_bit h with ⟨-, -, rfl⟩ | ⟨-, _, -, -, ⟨-, -, rfl⟩ | ⟨-, -, -, rfl⟩⟩ <;> exact ⟨rfl, rfl, rfl, fun _ => rfl⟩

theorem step_magnitudeBit {s : State} {j : Nat} {c : Component} {b : Bool} {d : Decoder} (running : s.host.running = true)
    (cancel : s.dec.cancel = false) (seg : s.dec.seg = .scan) (sub : s.dec.sub = .magnitude) (active : s.dec.active = some (j, c))
    (read : readBit s.dec = .bit b d) : step s = magnitudeBit (s.withDec d) c b := by
  rw [step_eq_unitOfWork running (by rw [seg]; rfl) cancel, unitOfWork_scan seg]
  simp only [scanUnit, active, sub, withBit, read]

/-- Settles O6: the four answers of the lookup. -/
theorem stepRunsDecodedSymbol : Obligations.StepRunsDecodedSymbol := by
  intro s j c b d t code width running cancel seg sub active read table hcode hwidth
  obtain ⟨same_k, same_code, same_width, same_table⟩ := readBit_code read
  rw [step_magnitudeBit running cancel seg sub active read]
  have appended : appendCodeBit b d = { d with hcode := code, hwidth := width } := by
    rw [appendCodeBit, same_code, same_width, hcode, hwidth]
  have lookup : codeLookup d c b = huffStep t code width := by
    rw [codeLookup, appended, table]
    exact congrArg (huffStep · code width) (same_table c)
  rw [← appended, ← same_k]
  exact ⟨fun v found ne => magnitudeBit_symbol (lookup.trans (huffStep_eq_symbol found ne)),
    fun missing ne short => magnitudeBit_more (lookup.trans (huffStep_eq_more missing ne short)),
    fun eq found => magnitudeBit_error (lookup.trans (huffStep_eq_collision found eq)),
    fun missing last => magnitudeBit_error (lookup.trans (huffStep_eq_noCode missing last))⟩

end Sys2Proof.Machine
end

section
/-! SUPPORT. The symbols by their values (42_entropy R129 to R135), the end of a block (R138), and the steps in `SCAN` that need a bit and
complete no symbol (R126, R136). -/

namespace Sys2Proof.Machine

/-! ### DC symbols -/

/-- The rows of the illegal DC symbols, each as its mask and its match (30_encoding R83). -/
def dcIllegalRows : List (Byte × Byte) := [(0xFC, 0x0C), (0xF0, 0x10), (0xE0, 0x20), (0xC0, 0x40), (0x80, 0x80)]

theorem lt_of_dcIllegalRow : ∀ row ∈ dcIllegalRows, ∀ v : Byte, codeFits row.1 row.2 v = true → 11 < v.toNat := by
  intro row mem
  fin_cases mem <;> decide +kernel

/-- A DC symbol is the magnitude it starts, up to 11 (42_entropy R129, R130). -/
theorem exec_of_dcSymbol {i : Instr} (wellFormed : i.wellFormed = true) (dc : i.kind = .dcSymbol) (s : State) :
    exec i s = if i.codeByte.toNat ≤ 11 then startAmplitude 0 i.codeByte.toNat s else raise .e33 s := by
  have illegal : 11 < i.codeByte.toNat →
      raise .e33 s = if i.codeByte.toNat ≤ 11 then startAmplitude 0 i.codeByte.toNat s else raise .e33 s :=
    fun large => (if_neg (Nat.not_le.2 large)).symm
  cases i with
  | dcIllegal0C_0F v => exact illegal (lt_of_dcIllegalRow (0xFC, 0x0C) (by decide) v wellFormed)
  | dcIllegal10_1F v => exact illegal (lt_of_dcIllegalRow (0xF0, 0x10) (by decide) v wellFormed)
  | dcIllegal20_3F v => exact illegal (lt_of_dcIllegalRow (0xE0, 0x20) (by decide) v wellFormed)
  | dcIllegal40_7F v => exact illegal (lt_of_dcIllegalRow (0xC0, 0x40) (by decide) v wellFormed)
  | dcIllegal80_FF v => exact illegal (lt_of_dcIllegalRow (0x80, 0x80) (by decide) v wellFormed)
  | _ => cases dc <;> rfl

/-- Settles O25: the two sides of the bound on the magnitude. -/
theorem dcSymbolsSetMagnitude : Obligations.DcSymbolsSetMagnitude := fun s _ wellFormed dc =>
  ⟨fun legal => (exec_of_dcSymbol wellFormed dc s).trans (if_pos legal),
    fun large => (exec_of_dcSymbol wellFormed dc s).trans (if_neg (Nat.not_le.2 large))⟩

/-! ### AC symbols -/

/-- What the AC symbol of run `r` and size `sz` does (42_entropy R131 to R135). -/
def acMeaning (r sz : Nat) (s : State) : Host.Outcome State Fault Refusal :=
  if sz = 0 then
    if r = 0 then .next (s.withDec { s.dec with sub := .endOfBlockCount })
    else if r = 15 then startAmplitude 15 0 s
    else raise .e34 s
  else if sz ≤ 10 then startAmplitude r sz s
  else raise .e33 s

theorem acMeaning_amplitude {r sz : Nat} (positive : 1 ≤ sz) (legal : sz ≤ 10) (s : State) : acMeaning r sz s = startAmplitude r sz s :=
  (if_neg (Nat.ne_of_gt positive)).trans (if_pos legal)

theorem acMeaning_illegal {r sz : Nat} (large : 11 ≤ sz) (s : State) : acMeaning r sz s = raise .e33 s :=
  (if_neg (by omega)).trans (if_neg (by omega))

/-- The nibbles of a symbol value (30_encoding R84). -/
theorem nibbles_append (r sz : BitVec 4) : (r ++ sz : Byte).toNat / 16 = r.toNat ∧ (r ++ sz : Byte).toNat % 16 = sz.toNat := by
  have value : (r ++ sz : Byte).toNat = r.toNat * 16 + sz.toNat := by
    rw [BitVec.toNat_append, ← Nat.shiftLeft_add_eq_or_of_lt sz.isLt, Nat.shiftLeft_eq]
  omega

/-- An AC symbol by the nibbles of its value: the rows of several values by their low nibble, every other row by its entry. -/
theorem exec_of_acSymbol {i : Instr} (wellFormed : i.wellFormed = true) (ac : i.kind = .acSymbol) (s : State) :
    exec i s = acMeaning (i.codeByte.toNat / 16) (i.codeByte.toNat % 16) s := by
  have nibbles : ∀ {r sz : BitVec 4}, i.codeByte = r ++ sz →
      acMeaning (i.codeByte.toNat / 16) (i.codeByte.toNat % 16) s = acMeaning r.toNat sz.toNat s := fun {r sz} code => by
    rw [code, (nibbles_append r sz).1, (nibbles_append r sz).2]
  cases i with
  | acRunSize1 r | acRunSize2 r | acRunSize3 r | acRunSize4 r | acRunSize5 r
  | acRunSize6 r | acRunSize7 r | acRunSize8 r | acRunSize9 r | acRunSize10 r =>
    exact ((nibbles rfl).trans (acMeaning_amplitude (by decide) (by decide) s)).symm
  | acIllegalSize11 r => exact ((nibbles rfl).trans (acMeaning_illegal (by decide) s)).symm
  | acIllegalSize12_15 r sz =>
    have large : 12 ≤ sz.toNat := of_decide_eq_true wellFormed
    exact ((nibbles rfl).trans (acMeaning_illegal (by omega) s)).symm
  | _ => cases ac <;> rfl

/-- Settles O26: the branches of the run and the size. -/
theorem acSymbolsSetRunAndMagnitude : Obligations.AcSymbolsSetRunAndMagnitude := by
  intro s i r sz wellFormed ac hr hsz
  rw [exec_of_acSymbol wellFormed ac, ← hr, ← hsz]
  refine ⟨fun positive legal => acMeaning_amplitude positive legal s, fun size run => ?_, fun size run => ?_, fun size positive short => ?_,
    fun large => acMeaning_illegal large s⟩
  · rw [size, run]
    rfl
  · rw [size, run]
    rfl
  · rw [acMeaning, if_pos size, if_neg (by omega), if_neg (by omega)]
    rfl

/-! ### The end of a block -/

theorem settle_endOfBlock {s : State} {j : Nat} {c : Component} (seg : s.dec.seg = .scan) (sub : s.dec.sub = .endOfBlockCount)
    (active : s.dec.active = some (j, c)) : settle s = eobStep s j c := by
  simp only [settle, seg, active, sub, if_true]

/-- Settles O31: the zeros fill the block from the coefficient index to its end. -/
theorem eobZeroesTheRest : Obligations.EobZeroesTheRest := by
  intro s j c seg sub active k
  refine ⟨zeroFill c.scratch s.dec.k (64 - s.dec.k), fun n => ?_, ?_⟩
  · rw [read_zeroFill _ (by omega), Nat.add_sub_cancel' (by omega)]
    simp only [n.isLt, and_true]
  · rw [settle_endOfBlock seg sub active, eobStep, Nat.max_eq_right (by omega)]
    rfl

/-! ### A bit of an amplitude -/

/-- The bit reader writes the stream position and the accumulator only (42_entropy R125). -/
theorem readBit_writes {d d' : Decoder} {b : Bool} (h : readBit d = .bit b d') :
    ∃ pos acc nbits, d' = { d with pos := pos, acc := acc, nbits := nbits } := by
  rcases readBit_bit h with ⟨-, -, rfl⟩ | ⟨-, _, -, -, ⟨-, -, rfl⟩ | ⟨-, -, -, rfl⟩⟩ <;> exact ⟨_, _, _, rfl⟩

theorem settle_amplitude_more {s : State} (seg : s.dec.seg = .scan) (sub : s.dec.sub = .amplitude) {j : Nat} {c : Component}
    (active : s.dec.active = some (j, c)) (more : s.dec.ampn < s.dec.mag) : settle s = .next s := by
  simp only [settle, seg, active, sub, if_true, if_pos more]

theorem step_amplitudeBit {s : State} {j : Nat} {c : Component} {b : Bool} {d : Decoder} (running : s.host.running = true)
    (cancel : s.dec.cancel = false) (seg : s.dec.seg = .scan) (sub : s.dec.sub = .amplitude) (more : s.dec.ampn < s.dec.mag)
    (active : s.dec.active = some (j, c)) (read : readBit s.dec = .bit b d) : step s = settle (s.withDec (amplitudeBit b d)) := by
  rw [step_eq_unitOfWork running (by rw [seg]; rfl) cancel, unitOfWork_scan seg]
  simp only [scanUnit, active, sub, if_pos more, withBit, read]
  rfl

/-- Settles O7: the bit reader leaves the amplitude and the cursors, and what the bit completes depends on the bits left to read. -/
theorem stepReadsAmplitudeBit : Obligations.StepReadsAmplitudeBit := by
  intro s j c b d running cancel seg sub more active read
  rw [step_amplitudeBit running cancel seg sub more active read]
  obtain ⟨pos, acc, nbits, rfl⟩ := readBit_writes read
  exact ⟨fun left => settle_amplitude_more (s := s.withDec (amplitudeBit b _)) seg sub active left,
    fun last => settle_amplitude (s := s.withDec (amplitudeBit b _)) seg sub active last⟩

/-! ### A marker where a bit is needed -/

theorem withBit_marker {s : State} {d : Decoder} (h : readBit s.dec = .markerSeen d)
    (body : Bool → State → Host.Outcome State Fault Refusal) : withBit s body = .next (s.withDec d) := by
  simp only [withBit, h]

/-- Settles O8: the bit reader sees the marker in either sub-state that needs a bit. -/
theorem markerEndsEntropyData : Obligations.MarkerEndsEntropyData := by
  intro s j c b running cancel seg needsBit active empty supplied ff code nonzero
  obtain ⟨body, hbody⟩ := scanUnit_eq_withBit (by rw [active]; rfl) needsBit
  rw [step_eq_unitOfWork running (by rw [seg]; rfl) cancel, unitOfWork_scan seg, hbody,
    withBit_marker (readBit_marker empty supplied ff code nonzero)]
  rfl

end Sys2Proof.Machine
end

section
/-! SUPPORT. What placement with conversion leaves in IMG (43_mcu_color R146 to R148): the pixels of a data unit are distinct, so each is
converted once, from its sample and the two cells that stood there. -/

namespace Sys2Proof.Machine

/-! ### The pixels of a data unit are distinct -/

theorem samplePixels_nodup (d : Decoder) (c : Component) (yy xx : Nat) : (samplePixels d c yy xx).Nodup := by
  refine List.Nodup.filter _ (List.nodup_flatMap.2 ⟨fun j _ => ?_, List.nodup_range.imp fun {j j'} ne => ?_⟩)
  · exact List.nodup_range.map fun i i' eq => Nat.add_left_cancel (congrArg Prod.fst eq)
  · refine List.disjoint_left.2 fun p hp hp' => ne ?_
    obtain ⟨i, -, rfl⟩ := List.mem_map.1 hp
    obtain ⟨i', -, eq⟩ := List.mem_map.1 hp'
    exact (Nat.add_left_cancel (congrArg Prod.snd eq)).symm

/-- A pixel of a sample is a place of its block. -/
theorem exists_inBlock {d : Decoder} {c : Component} {n : Nat} {p : Nat × Nat} (hn : n < 64) (hp : p ∈ samplePixels d c (n / 8) (n % 8)) :
    ∃ i j, InBlock d c (n / 8) (n % 8) i j ∧ p = blockPixel d c (n / 8) (n % 8) i j := by
  obtain ⟨hx, hy, i, hi, j, hj, ex, ey⟩ := mem_samplePixels.1 hp
  have eq : p = blockPixel d c (n / 8) (n % 8) i j := Prod.ext ex ey
  exact ⟨i, j, ⟨by omega, by omega, hi, hj, eq ▸ hx, eq ▸ hy⟩, eq⟩

/-- A data unit writes no pixel twice (R145). -/
theorem unitPixels_distinct (d : Decoder) (c : Component) (samples : Vector Byte 64) :
    (unitPixels d c samples).Pairwise fun w w' => w.1 ≠ w'.1 := by
  suffices ((unitPixels d c samples).map Prod.fst).Nodup from List.pairwise_map.1 this
  simp only [unitPixels, List.map_flatMap, List.map_map, Function.comp_def, List.map_id']
  refine List.nodup_flatMap.2 ⟨fun n _ => samplePixels_nodup _ _ _ _, List.nodup_range.pairwise_of_forall_ne fun n hn n' hn' ne => ?_⟩
  refine List.disjoint_left.2 fun p hp hp' => ne ?_
  obtain ⟨i, j, block, rfl⟩ := exists_inBlock (List.mem_range.1 hn) hp
  obtain ⟨i', j', block', eq⟩ := exists_inBlock (List.mem_range.1 hn') hp'
  obtain ⟨row, column⟩ := blockPixel_inj block block' eq
  rw [← Nat.div_add_mod n 8, row, column, Nat.div_add_mod]

/-- The cells of different pixels are different (20_memory R59). -/
theorem pixel_cells_disjoint {d : Decoder} {p p' : Nat × Nat} {n n' : Nat} (three : d.nf = 3) (h : p.1 < d.width.toNat)
    (h' : p'.1 < d.width.toNat) (hn : n < 3) (hn' : n' < 3) (ne : p ≠ p') : pixelOffset d p + n ≠ pixelOffset d p' + n' := by
  intro eq
  have offset : pixelOffset d p = pixelOffset d p' := by
    simp only [pixelOffset, three] at eq ⊢
    omega
  exact ne (pixelOffset_inj (index := 0) (by omega) h h' offset)

/-! ### One pixel -/

/-- The three cells from `o` on are in `pix'` the conversion of the sample `v`, at place `index`, and of what stood in `pix` at the other
two places. -/
def PixelConverted (mode : RoundMode) (index : Nat) (v : Byte) (o : Nat) (pix pix' : Memory) : Prop :=
  ∃ y cb cr : Byte,
    (∀ (n : Nat) (b : Byte), [y, cb, cr][n]? = some b → some b = if n = index then some v else Memory.read pix (o + n))
    ∧ Memory.read pix' o = some (ycbcrToRgb mode y cb cr).1
    ∧ Memory.read pix' (o + 1) = some (ycbcrToRgb mode y cb cr).2.1
    ∧ Memory.read pix' (o + 2) = some (ycbcrToRgb mode y cb cr).2.2

/-- Only the pixel's own cells count. -/
theorem PixelConverted.congr {mode : RoundMode} {index : Nat} {v : Byte} {o : Nat} {pix pix' m m' : Memory}
    (h : PixelConverted mode index v o pix pix') (before : ∀ n < 3, Memory.read m (o + n) = Memory.read pix (o + n))
    (after : ∀ n < 3, Memory.read m' (o + n) = Memory.read pix' (o + n)) : PixelConverted mode index v o m m' := by
  obtain ⟨y, cb, cr, cells, red, green, blue⟩ := h
  refine ⟨y, cb, cr, fun n b hb => ?_, (after 0 (by omega)).trans red, (after 1 (by omega)).trans green, (after 2 (by omega)).trans blue⟩
  rw [before n (List.getElem?_eq_some_iff.1 hb).1]
  exact cells n b hb

theorem convertPixel_eq {mode : RoundMode} {pix : Memory} {o : Nat} {y cb cr : Byte} (hy : Memory.read pix o = some y)
    (hcb : Memory.read pix (o + 1) = some cb) (hcr : Memory.read pix (o + 2) = some cr) :
    convertPixel mode pix o = .ok (Memory.write (Memory.write (Memory.write pix o (ycbcrToRgb mode y cb cr).1) (o + 1)
      (ycbcrToRgb mode y cb cr).2.1) (o + 2) (ycbcrToRgb mode y cb cr).2.2) := by
  simp only [convertPixel, hy, hcb, hcr]

/-- Once the sample is written, the pixel's three cells hold values; they are converted, and no other cell is written (R146, R148). -/
theorem placePixel_converts {mode : RoundMode} {d : Decoder} {index : Nat} {pix : Memory} {w : (Nat × Nat) × Byte}
    (inside : pixelOffset d w.1 + index < imageSize d)
    (others : ∀ n < 3, n ≠ index → (Memory.read pix (pixelOffset d w.1 + n)).isSome = true) (hindex : index < 3) :
    ∃ pix', placePixel mode d index true pix w = .ok pix' ∧ PixelConverted mode index w.2 (pixelOffset d w.1) pix pix'
      ∧ ∀ a, (∀ n < 3, a ≠ pixelOffset d w.1 + n) → Memory.read pix' a = Memory.read pix a := by
  have place : placePixel mode d index true pix w
      = convertPixel mode (Memory.write pix (pixelOffset d w.1 + index) w.2) (pixelOffset d w.1) := if_neg (Nat.not_le.2 inside)
  generalize pixelOffset d w.1 = o at *
  have cell : ∀ n, Memory.read (Memory.write pix (o + index) w.2) (o + n) = if n = index then some w.2 else Memory.read pix (o + n) :=
    fun n => by simp only [Memory.read_write, Nat.add_left_cancel_iff]
  have holds : ∀ n < 3, ∃ b, Memory.read (Memory.write pix (o + index) w.2) (o + n) = some b := fun n hn => by
    rw [cell n]
    split
    · exact ⟨_, rfl⟩
    · exact Option.isSome_iff_exists.1 (others n hn (by assumption))
  obtain ⟨y, hy⟩ := holds 0 (by omega)
  obtain ⟨cb, hcb⟩ := holds 1 (by omega)
  obtain ⟨cr, hcr⟩ := holds 2 (by omega)
  refine ⟨_, place.trans (convertPixel_eq hy hcb hcr), ⟨y, cb, cr, fun n b hb => ?_, ?_, ?_, ?_⟩, fun a other => ?_⟩
  · rw [← cell n]
    match n with
    | 0 => exact hb.symm.trans hy.symm
    | 1 => exact hb.symm.trans hcb.symm
    | 2 => exact hb.symm.trans hcr.symm
  · simp [Memory.read_write]
  · simp [Memory.read_write]
  · exact Memory.read_write_same _ _ _
  · rw [Memory.read_write_other _ _ (other 2 (by omega)), Memory.read_write_other _ _ (other 1 (by omega)),
      Memory.read_write_other _ _ (show a ≠ o from other 0 (by omega)), Memory.read_write_other _ _ (other index hindex)]

/-! ### All pixels -/

/-- Pixels whose cells do not meet are each converted from the cells before placement, and a cell of none of them reads as before. -/
theorem placePixels_convert {mode : RoundMode} {d : Decoder} {index : Nat} {ws : List ((Nat × Nat) × Byte)} {pix : Memory}
    (hindex : index < 3) (inside : ∀ w ∈ ws, pixelOffset d w.1 + index < imageSize d)
    (others : ∀ w ∈ ws, ∀ n < 3, n ≠ index → (Memory.read pix (pixelOffset d w.1 + n)).isSome = true)
    (apart : ws.Pairwise fun w w' => ∀ n < 3, ∀ n' < 3, pixelOffset d w.1 + n ≠ pixelOffset d w'.1 + n') :
    ∃ pix', placePixels mode d index true pix ws = .ok pix'
      ∧ (∀ w ∈ ws, PixelConverted mode index w.2 (pixelOffset d w.1) pix pix')
      ∧ ∀ a, (∀ w ∈ ws, ∀ n < 3, a ≠ pixelOffset d w.1 + n) → Memory.read pix' a = Memory.read pix a := by
  induction ws generalizing pix with
  | nil => exact ⟨pix, rfl, nofun, fun _ _ => rfl⟩
  | cons w ws ih =>
    simp only [List.forall_mem_cons] at inside others
    obtain ⟨apartHere, apart⟩ := List.pairwise_cons.1 apart
    obtain ⟨pix₁, first, converted, kept⟩ := placePixel_converts (mode := mode) inside.1 others.1 hindex
    have untouched : ∀ w' ∈ ws, ∀ n < 3, Memory.read pix₁ (pixelOffset d w'.1 + n) = Memory.read pix (pixelOffset d w'.1 + n) :=
      fun w' hw' n hn => kept _ fun n' hn' => (apartHere w' hw' n' hn' n hn).symm
    obtain ⟨pix', rest, convertedRest, keptRest⟩ := ih inside.2 (fun w' hw' n hn ne => untouched w' hw' n hn ▸ others.2 w' hw' n hn ne) apart
    refine ⟨pix', by simp only [placePixels, first, rest], List.forall_mem_cons.2 ⟨?_, fun w' hw' => ?_⟩, fun a other => ?_⟩
    · exact converted.congr (fun _ _ => rfl) fun n hn => keptRest _ fun w' hw' => apartHere w' hw' n hn
    · exact (convertedRest w' hw').congr (fun n hn => (untouched w' hw' n hn).symm) fun _ _ => rfl
    · obtain ⟨here, later⟩ := List.forall_mem_cons.1 other
      exact (keptRest a later).trans (kept a here)

/-- Placement of the last scan component of a three-component frame; `D.k`, which is 64 when completion runs, has no part in it. -/
theorem placeUnit_converts {s : State} {j : Nat} {c : Component} {img : Image} (safe : (s.withDec { s.dec with k := 0 }).Safe)
    (seg : s.dec.seg = .scan) (active : s.dec.active = some (j, c)) (present : s.dec.img = some img) (three : s.dec.nf = 3)
    (last : s.dec.scanPos + 1 = s.dec.ns) (samples : Vector Byte 64) :
    ∃ pix', placePixels s.cfg.ccRound s.dec c.index true img.pix (unitPixels s.dec c samples) = .ok pix'
      ∧ (∀ w ∈ unitPixels s.dec c samples, PixelConverted s.cfg.ccRound c.index w.2 (pixelOffset s.dec w.1) img.pix pix')
      ∧ ∀ a, (∀ w ∈ unitPixels s.dec c samples, ∀ n < 3, a ≠ pixelOffset s.dec w.1 + n) → Memory.read pix' a = Memory.read img.pix a := by
  have inScan : Decoder.InScan { s.dec with k := 0 } := safe.inScan seg
  have activeOk : ActiveOk { s.dec with k := 0 } j c := inScan.activeOk active
  have width : ∀ w ∈ unitPixels s.dec c samples, w.1.1 < s.dec.width.toNat := fun w hw =>
    (inScan.unitPixels_inside activeOk samples hw).1
  refine placePixels_convert ?_ (fun w hw => inScan.cell_inside activeOk samples hw)
    (fun w hw n hn ne => inScan.other_cells_written activeOk present samples (by simp [convertsNow, three, last]) hw hn ne) ?_
  · exact activeOk.index ▸ activeOk.lt.trans_eq three
  · refine (unitPixels_distinct s.dec c samples).imp_of_mem fun hw hw' ne n hn n' hn' => ?_
    exact pixel_cells_disjoint three (width _ hw) (width _ hw') hn hn' ne

/-- Settles O33: the pixels are distinct, so each is converted once, from the cells that stood there before. -/
theorem placementConvertsItsPixels : Obligations.PlacementConvertsItsPixels := by
  intro s j c img samples safe seg active present sampled three last sx sy bx by_ pixel
  have offset : ∀ p, pixelOffset s.dec p = pixel p.1 p.2 := fun p => by simp only [pixelOffset, three, pixel]
  obtain ⟨pix, placed, converted, kept⟩ := placeUnit_converts safe seg active present three last samples
  have conv : convertsNow s.dec = true := by simp [convertsNow, three, last]
  refine ⟨pix, dataUnitComplete_placed j sampled present (conv ▸ placed), fun yy xx i j' hyy hxx hi hj hx hy => ?_, fun o other => ?_⟩
  · have pixelConverted := converted _ (mem_unitPixels_iff.2 ⟨yy, xx, i, j', ⟨hyy, hxx, hi, hj, hx, hy⟩, rfl⟩)
    have sample : samples.toList[8 * yy + xx]? = some (samples.toList.getD (8 * yy + xx) 0) := by
      rw [List.getD_eq_getElem?_getD, List.getElem?_eq_getElem (by rw [Vector.length_toList]; omega), Option.getD_some]
    rw [offset] at pixelConverted
    rw [sample]
    exact pixelConverted
  · refine kept o fun w hw n hn => ?_
    obtain ⟨yy, xx, i, j', block, rfl⟩ := mem_unitPixels_iff.1 hw
    rw [offset]
    exact other yy xx i j' n block.row block.column block.across block.down hn block.width block.height

end Sys2Proof.Machine
end

section
/-! SUPPORT. Colour conversion with neutral chroma (43_mcu_color R148). -/

namespace Sys2Proof.Machine

/-- A luma plus a zero of either sign is the luma. -/
theorem luma_add_zero : ∀ (y : Byte) (s : Bool), F64.add (F64.ofInt y.toNat) (.fin s 0 (-1074)) = F64.ofInt y.toNat := by
  decide +kernel

theorem mul_posZero (m : Nat) (e : Int) : F64.mul (.fin false m e) (.fin false 0 (-1074)) = .fin false 0 (-1074) := rfl

/-- A byte is its own channel under every rounding mode. -/
theorem channel_ofInt (mode : RoundMode) (y : Byte) : channel mode (F64.ofInt y.toNat) = y := by
  have all : ∀ y : Byte, channel .nearestAway (F64.ofInt y.toNat) = y ∧ channel .nearestEven (F64.ofInt y.toNat) = y
      ∧ channel .truncate (F64.ofInt y.toNat) = y := by decide +kernel
  obtain ⟨away, even, truncate⟩ := all y
  cases mode
  case nearestAway => exact away
  case nearestEven => exact even
  case truncate => exact truncate

/-- Neutral chroma adds and subtracts zeros only. -/
theorem ycbcrToRgb_neutral (mode : RoundMode) (y : Byte) : ycbcrToRgb mode y 128 128 = (y, y, y) := by
  have neutral : ((128 : Byte).toNat : Int) - 128 = 0 := rfl
  simp only [ycbcrToRgb, neutral, ofInt_zero, ccRedCr, ccGreenCb, ccGreenCr, ccBlueCb, mul_posZero, F64.sub, F64.neg, luma_add_zero,
    channel_ofInt]

/-- Settles O35: neutral chroma by the lemma for every luma, the rest by calculation. -/
theorem colourExamples : Obligations.ColourExamples :=
  ⟨by decide +kernel, ycbcrToRgb_neutral, by decide +kernel, by decide +kernel⟩

end Sys2Proof.Machine
end

section
/-! SUPPORT. The samples of the inverse transform (44_transform R159), and the block that has only a DC coefficient (R160). -/

namespace Sys2Proof.Machine

/-! ### Level shift and clamp -/

theorem toNat_clampByte (n : Int) : ((clampByte n).toNat : Int) = min 255 (max 0 n) := by
  rw [clampByte, clamp, BitVec.toNat_ofNat]
  omega

theorem clamp_of_fits {n : Int} (low : -32768 ≤ n) (high : n ≤ 32767) : clamp (-32768) 32767 n = n := by
  rw [clamp, max_eq_right low, min_eq_right high]

theorem levelShift_of_fits {n : Int} (low : -32768 ≤ n) (high : n ≤ 32767) : levelShift n = clampByte (n + 128) := by
  rw [levelShift, clamp_of_fits low high]

theorem toNat_levelShift (n : Int) : ((levelShift n).toNat : Int) = min 255 (max 0 (min 32767 (max (-32768) n) + 128)) :=
  toNat_clampByte _

theorem outsideI16_iff {n : Int} : outsideI16 n = true ↔ n < -32768 ∨ 32767 < n := by
  simp only [outsideI16, Bool.or_eq_true, decide_eq_true_eq]

/-! ### The samples -/

/-- The rounded output of the inverse transform at a position. -/
def roundedOutput (cfg : Params) (f : Vector Int 64) (i : Fin 64) : Int := F64.round cfg.idctRound (inverseDct cfg f)[i]

theorem any_outsideI16_iff (cfg : Params) (f : Vector Int 64) :
    ((inverseDct cfg f).map (F64.round cfg.idctRound)).toList.any outsideI16 = true
      ↔ ∃ i, outsideI16 (roundedOutput cfg f i) = true := by
  simp only [List.any_eq_true, Vector.mem_toList_iff, Vector.mem_iff_getElem, Vector.getElem_map, roundedOutput, Fin.getElem_fin]
  constructor
  · rintro ⟨_, ⟨i, hi, rfl⟩, outside⟩
    exact ⟨⟨i, hi⟩, outside⟩
  · rintro ⟨i, outside⟩
    exact ⟨_, ⟨i, i.isLt, rfl⟩, outside⟩

/-- An output outside 16 bits leaves no samples under `fault`. -/
theorem idctSamples_fault {cfg : Params} {f : Vector Int 64} (mode : cfg.idctOverflow = .fault)
    (outside : ∃ i, outsideI16 (roundedOutput cfg f i) = true) : idctSamples cfg f = none := by
  simp only [idctSamples, mode, if_pos ((any_outsideI16_iff cfg f).2 outside)]

/-- Under `saturate`, and under `fault` with every output in 16 bits, the samples are the outputs after level shift and clamp. -/
theorem idctSamples_some {cfg : Params} {f : Vector Int 64}
    (passes : cfg.idctOverflow = .saturate ∨ ¬∃ i, outsideI16 (roundedOutput cfg f i) = true) :
    idctSamples cfg f = some (Vector.ofFn fun i => levelShift (roundedOutput cfg f i)) := by
  have samples : ((inverseDct cfg f).map (F64.round cfg.idctRound)).map levelShift
      = Vector.ofFn fun i => levelShift (roundedOutput cfg f i) := by
    ext i hi
    simp only [Vector.getElem_map, Vector.getElem_ofFn, roundedOutput, Fin.getElem_fin]
  rw [← any_outsideI16_iff] at passes
  cases mode : cfg.idctOverflow with
  | saturate => simp only [idctSamples, mode, samples]
  | fault =>
    have inside := passes.resolve_left (by rw [mode]; nofun)
    simp only [idctSamples, mode, if_neg inside, samples]

/-- Settles O37: the two overflow modes, and a value that fits passes the saturation unchanged. -/
theorem sampleRangeIsChecked : Obligations.SampleRangeIsChecked := by
  intro cfg f n hn
  obtain rfl : n = roundedOutput cfg f := funext hn
  refine ⟨fun fits => ⟨_, idctSamples_some (.inr ?_), fun i => ?_⟩, fun ⟨i, outside⟩ mode => ?_,
    fun mode => ⟨_, idctSamples_some (.inl mode), fun i => ?_⟩⟩
  · rintro ⟨i, outside⟩
    obtain ⟨low, high⟩ := fits i
    exact (outsideI16_iff.1 outside).elim (not_lt.2 low) (not_lt.2 high)
  · rw [Fin.getElem_fin, Vector.getElem_ofFn, levelShift_of_fits (fits i).1 (fits i).2, toNat_clampByte]
  · exact idctSamples_fault mode ⟨i, outsideI16_iff.2 outside⟩
  · rw [Fin.getElem_fin, Vector.getElem_ofFn, toNat_levelShift]

/-! ### Products and sums that keep a normal value -/

/-- A normal magnitude: 53 bits, at an exponent of binary64. -/
structure NormalMagnitude (m : Nat) (e : Int) : Prop where
  low : 2 ^ 52 ≤ m
  high : m < 2 ^ 53
  least : -1074 ≤ e
  greatest : e ≤ 971

theorem shiftNearestEven_mul_two_pow (m k : Nat) : shiftNearestEven (m * 2 ^ k) k = m := by
  unfold shiftNearestEven
  split
  · rename_i zero
    rw [zero, pow_zero, mul_one]
  · have half : 0 < 2 ^ (k - 1) := Nat.two_pow_pos _
    have noTie : ¬(2 ^ (k - 1) < 0 ∨ 0 = 2 ^ (k - 1) ∧ m % 2 = 1) := by omega
    simp only [Nat.shiftRight_eq_div_pow, Nat.mul_mod_left, Nat.mul_div_cancel _ (Nat.two_pow_pos k), if_neg noTie]

theorem log2_mul_two_pow {m : Nat} (low : 2 ^ 52 ≤ m) (high : m < 2 ^ 53) (k : Nat) : (m * 2 ^ k).log2 = 52 + k := by
  rw [Nat.log2_eq_iff (Nat.mul_ne_zero (by omega) (Nat.two_pow_pos k).ne'), pow_add, Nat.add_right_comm, pow_add]
  exact ⟨Nat.mul_le_mul_right _ low, Nat.mul_lt_mul_of_pos_right high (Nat.two_pow_pos k)⟩

/-- A normal value written with `k` more bits below rounds to itself. -/
theorem ofScaled_mul_two_pow {m : Nat} {e : Int} (h : NormalMagnitude m e) (neg : Bool) (k : Nat) :
    F64.ofScaled neg (m * 2 ^ k) (e - k) = .fin neg m e := by
  obtain ⟨low, high, least, greatest⟩ := h
  have exponent : max (e - k + ((52 + k : Nat) : Int) - 52) (-1074) = e := by omega
  have magnitude : (if e ≤ e - k then (m * 2 ^ k) <<< (e - k - e).toNat else shiftNearestEven (m * 2 ^ k) (e - (e - k)).toNat) = m := by
    split
    · obtain rfl : k = 0 := by omega
      simp
    · rw [show (e - (e - k)).toNat = k by omega, shiftNearestEven_mul_two_pow]
  have positive : m * 2 ^ k ≠ 0 := Nat.mul_ne_zero (by omega) (Nat.two_pow_pos k).ne'
  simp only [F64.ofScaled, if_neg positive, log2_mul_two_pow low high, exponent, magnitude]
  rw [if_neg (by omega), F64.pack, if_neg (by omega)]

theorem cos_zero : ∀ x : Fin 8, Rom.cos x 0 = .fin false (2 ^ 52) (-52) := by decide

theorem add_comm_fin (n₁ n₂ : Bool) (m₁ m₂ : Nat) (e₁ e₂ : Int) :
    F64.add (.fin n₁ m₁ e₁) (.fin n₂ m₂ e₂) = F64.add (.fin n₂ m₂ e₂) (.fin n₁ m₁ e₁) := by
  simp only [F64.add, min_comm, Int.add_comm, Bool.and_comm]

theorem signed_of_pos (neg : Bool) {m : Nat} (positive : 0 < m) :
    signed neg m ≠ 0 ∧ decide (signed neg m < 0) = neg ∧ (signed neg m).natAbs = m := by
  cases neg <;> simp [signed] <;> omega

/-- A normal value plus a zero of either sign is the value. -/
theorem add_zero_of_normal {m : Nat} {e : Int} (h : NormalMagnitude m e) (neg s : Bool) :
    F64.add (.fin neg m e) (.fin s 0 (-1074)) = .fin neg m e := by
  have least := h.least
  obtain ⟨k, rfl⟩ : ∃ k : Nat, e = -1074 + k := ⟨(e + 1074).toNat, by omega⟩
  have zero : signed s 0 = 0 := by cases s <;> rfl
  have positive : 0 < m * 2 ^ k := Nat.mul_pos (Nat.lt_of_lt_of_le (Nat.two_pow_pos 52) h.low) (Nat.two_pow_pos k)
  obtain ⟨nonzero, sign, magnitude⟩ := signed_of_pos neg positive
  simp only [F64.add, min_eq_right least, add_sub_cancel_left, Int.toNat_natCast, Nat.shiftLeft_eq, zero_mul, zero, Int.add_zero,
    if_neg nonzero, sign, magnitude]
  simpa only [add_sub_cancel_right] using ofScaled_mul_two_pow h neg k

theorem keptByNeutral_of_normal {m : Nat} {e : Int} (h : NormalMagnitude m e) (neg : Bool) : KeptByNeutral (.fin neg m e) where
  one x := by
    rw [cos_zero, F64.mul, Bool.xor_false]
    exact ofScaled_mul_two_pow h neg 52
  first := (add_comm_fin ..).trans (add_zero_of_normal h neg false)
  zero := add_zero_of_normal h neg

/-- A positive zero or a normal value, as a check that can be run. -/
def zeroOrNormal : F64 → Bool
  | .fin neg m e =>
    (!neg && m == 0 && e == -1074) || (decide (2 ^ 52 ≤ m) && decide (m < 2 ^ 53) && decide (-1074 ≤ e) && decide (e ≤ 971))
  | _ => false

theorem keptByNeutral_of_zeroOrNormal {a : F64} (h : zeroOrNormal a = true) : KeptByNeutral a := by
  match a, h with
  | .fin neg m e, h =>
    simp only [zeroOrNormal, Bool.or_eq_true, Bool.and_eq_true, Bool.not_eq_true', beq_iff_eq, decide_eq_true_eq] at h
    rcases h with ⟨⟨rfl, rfl⟩, rfl⟩ | ⟨⟨⟨low, high⟩, least⟩, greatest⟩
    · exact keptByNeutral_zero
    · exact keptByNeutral_of_normal ⟨low, high, least, greatest⟩ neg

/-! ### A block with only a DC coefficient -/

/-- What the first pass leaves in row 0 of a block whose DC is `8 m`. -/
def dcRow (m : Int) : F64 := F64.mul (Rom.alpha 0) (F64.ofInt (8 * m))

/-- Every output of a block whose DC is `8 m`. -/
def dcOutput (m : Int) : F64 := F64.mul (Rom.alpha 0) (dcRow m)

theorem zeroOrNormal_dcRow : ∀ m : Int, -256 ≤ m → m ≤ 255 → zeroOrNormal (dcRow m) = true := by decide +kernel

/-- The rounding errors of the two products by `ALPHA[0]` stay below one half, so both nearest modes remove them. -/
theorem dcOutput_normal_and_rounds : ∀ m : Int, -256 ≤ m → m ≤ 255 →
    zeroOrNormal (dcOutput m) = true ∧ F64.round .nearestAway (dcOutput m) = m ∧ F64.round .nearestEven (dcOutput m) = m := by
  decide +kernel

theorem round_dcOutput {mode : RoundMode} (nearest : mode ≠ .truncate) {m : Int} (low : -256 ≤ m) (high : m ≤ 255) :
    F64.round mode (dcOutput m) = m := by
  obtain ⟨-, away, even⟩ := dcOutput_normal_and_rounds m low high
  cases mode with
  | nearestAway => exact away
  | nearestEven => exact even
  | truncate => exact absurd rfl nearest

theorem roundedOutput_dcOnly {cfg : Params} {m : Int} (reference : cfg.dctImpl = .reference) (nearest : cfg.idctRound ≠ .truncate)
    (low : -256 ≤ m) (high : m ≤ 255) (i : Fin 64) : roundedOutput cfg ((Vector.replicate 64 0).set 0 (8 * m)) i = m := by
  have flat : inverseDct cfg ((Vector.replicate 64 0).set 0 (8 * m)) = Vector.replicate 64 (dcOutput m) := by
    simp only [inverseDct, reference]
    exact idctReal_dcOnly (keptByNeutral_of_zeroOrNormal (zeroOrNormal_dcRow m low high))
      (keptByNeutral_of_zeroOrNormal (dcOutput_normal_and_rounds m low high).1) rfl rfl
  rw [roundedOutput, flat, Fin.getElem_fin, Vector.getElem_replicate, round_dcOutput nearest low high]

/-- Settles O36: every rounded output is `m`, which fits 16 bits. -/
theorem dcOnlyBlockIsFlat : Obligations.DcOnlyBlockIsFlat := by
  intro cfg m reference nearest low high
  have output := roundedOutput_dcOnly reference nearest low high
  have fits : ¬∃ i, outsideI16 (roundedOutput cfg ((Vector.replicate 64 0).set 0 (8 * m)) i) = true := by
    simp only [output, outsideI16_iff]
    omega
  rw [idctSamples_some (.inr fits)]
  refine congrArg some (Vector.ext fun i hi => ?_)
  rw [Vector.getElem_ofFn, Vector.getElem_replicate, output, levelShift_of_fits (by omega) (by omega)]

end Sys2Proof.Machine
end

section
/-! SUPPORT. The host operation `encode` (46_host_interface R193), and the header segments of its stream (45_encoder R166 to R174). -/

namespace Sys2Proof.Machine

/-! ### The operation -/

theorem encodable_iff {src : SrcImage} : encodable src = true ↔
    1 ≤ src.width ∧ src.width ≤ 65535 ∧ 1 ≤ src.height ∧ src.height ≤ 65535 ∧ 1 ≤ src.ncomp ∧ src.ncomp ≤ 4
      ∧ src.pix.length = src.width * src.height * src.ncomp := by
  simp only [encodable, Bool.and_eq_true, decide_eq_true_eq, and_assoc]

theorem encode_of_not_encodable {cfg : Params} {e : Encoder} (h : ¬encodable e.src = true) :
    Encoder.encode cfg e = .refuse .ef1 e.restart := if_neg h

/-- A completed encoding: the image was encodable, its blocks follow the header segments, and the flushed bits and EOI end the stream. -/
theorem encode_ok {cfg : Params} {e e' : Encoder} : Encoder.encode cfg e = .ok e' ↔ encodable e.src = true
    ∧ ∃ e₁, encodeBlocks cfg (encodedSource cfg e.src) (blockOrder (encodedSource cfg e.src))
        (e.restart.append (headers (encodedSource cfg e.src))) = .ok e₁
      ∧ e' = e₁.flushBits.append [0xFF, 0xD9] := by
  by_cases inside : encodable e.src = true
  · have run : Encoder.encode cfg e = _ := if_pos inside
    simp only [run, EncAct.andThen_ok, EncAct.ok.injEq, inside, true_and, eq_comm (b := e')]
    rfl
  · simp [encode_of_not_encodable, inside]

theorem step_encode {s : State} {e : Encoder} {ops : List HostOp} (idle : s.host.running = false) (pending : s.host.pending = .encode :: ops)
    (constructed : s.enc = some e) : step s = .next (hostEncode e (takeOp ops s)) := by
  rw [step_of_pending idle pending]
  simp only [hostStep, takeOp, constructed]

/-- The conversion of R183 changes samples only. -/
theorem encodedSource_size (cfg : Params) (src : SrcImage) : (encodedSource cfg src).width = src.width
    ∧ (encodedSource cfg src).height = src.height ∧ (encodedSource cfg src).ncomp = src.ncomp := by
  unfold encodedSource
  split <;> exact ⟨rfl, rfl, rfl⟩

/-- The precondition of R166, with the sizes of the samples the encoder extracts from. -/
theorem encodable_iff_encodedSource (cfg : Params) (src : SrcImage) : encodable src = true ↔
    1 ≤ (encodedSource cfg src).width ∧ (encodedSource cfg src).width ≤ 65535 ∧ 1 ≤ (encodedSource cfg src).height
      ∧ (encodedSource cfg src).height ≤ 65535 ∧ 1 ≤ (encodedSource cfg src).ncomp ∧ (encodedSource cfg src).ncomp ≤ 4
      ∧ src.pix.length = (encodedSource cfg src).width * (encodedSource cfg src).height * (encodedSource cfg src).ncomp := by
  obtain ⟨width, height, ncomp⟩ := encodedSource_size cfg src
  rw [encodable_iff, width, height, ncomp]

theorem encodedSource_ncomp (cfg : Params) {src : SrcImage} (inside : encodable src = true) :
    1 ≤ (encodedSource cfg src).ncomp ∧ (encodedSource cfg src).ncomp ≤ 4 := by
  obtain ⟨-, -, -, -, positive, le_four, -⟩ := (encodable_iff_encodedSource cfg src).1 inside
  exact ⟨positive, le_four⟩

/-- Settles O58: the precondition fails before anything is written. -/
theorem unencodableImagesAreRefused : Obligations.UnencodableImagesAreRefused := by
  intro s e ops idle pending constructed outside
  have refused : Encoder.encode s.cfg e = .refuse .ef1 e.restart := encode_of_not_encodable (mt encodable_iff.1 outside)
  refine ⟨e.restart, rfl, rfl, ?_⟩
  simp only [step_encode idle pending constructed, hostEncode, takeOp, refused, reply]

/-! ### The header segments (R167 to R174) -/

theorem sel_eq (c : Nat) : sel c = (tableSelector c).val := by
  unfold sel tableSelector
  split <;> rfl

theorem headerApp0_eq : headerApp0 = [0xFF, 0xD8]
    ++ segmentBytes 0xE0 [0x4A, 0x46, 0x49, 0x46, 0x00, 0x01, 0x01, 0x00, 0x00, 0x01, 0x00, 0x01, 0x00, 0x00] := by decide

/-- The table pairs an image of `n` components uses (R168, R170). -/
def streamTables (n : Nat) : List (Fin 4) := if n = 1 then [0] else [0, 1]

theorem headerDqt_eq (n : Nat) : headerDqt n = segmentBytes 0xDB (quantPayload ((streamTables n).map fun t => (t, quantTable t))) := by
  unfold headerDqt tableCount streamTables
  split <;> decide +kernel

theorem headerDht_eq (n : Nat) : headerDht n = segmentBytes 0xC4 (huffPayload ((streamTables n).flatMap huffPair)) := by
  unfold headerDht dhtPayload streamTables
  split <;> decide +kernel

theorem be16Bytes_ofNat (n : Nat) : be16Bytes (BitVec.ofNat 16 n).toNat = be16Bytes n := by
  simp only [be16Bytes, BitVec.toNat_ofNat, List.cons.injEq, and_true]
  constructor <;> apply BitVec.eq_of_toNat_eq <;> simp only [BitVec.toNat_ofNat] <;> omega

theorem headerSof_eq (width height n : Nat) : headerSof width height n = segmentBytes 0xC0 (framePayload (BitVec.ofNat 16 height)
    (BitVec.ofNat 16 width) ((List.range n).map fun c => ⟨BitVec.ofNat 8 (c + 1), 1, 1, tableSelector c⟩)) := by
  have length : 6 + 3 * n + 2 = 8 + 3 * n := by omega
  simp only [segmentBytes, framePayload_length, List.length_map, List.length_range, length]
  simp only [headerSof, framePayload, be16Bytes_ofNat, List.flatMap_map, List.length_map, List.length_range, sel_eq]
  simp

theorem headerSos_eq (n : Nat) : headerSos n = segmentBytes 0xDA
    (scanPayload ((List.range n).map fun c => ⟨BitVec.ofNat 8 (c + 1), tableSelector c, tableSelector c⟩)) := by
  have length : 4 + 2 * n + 2 = 6 + 2 * n := by omega
  have tables : ∀ c, (if sel c = 0 then 0x00 else 0x11 : Byte) = BitVec.ofNat 8 (16 * (tableSelector c).val + (tableSelector c).val) := by
    intro c
    unfold sel tableSelector
    split <;> rfl
  simp only [segmentBytes, scanPayload_length, List.length_map, List.length_range, length]
  simp only [headerSos, scanPayload, List.flatMap_map, List.length_map, List.length_range, tables]
  simp

/-- The header the encoder writes is that of `streamHeader`. -/
theorem headers_eq (src : SrcImage) : headers src = streamHeader src.width src.height src.ncomp := by
  rw [headers, headerApp0_eq, headerDqt_eq, headerSof_eq, headerDht_eq, headerSos_eq]
  simp only [streamHeader, List.map_map]
  rfl

theorem segmentBytes_length (code : Byte) (p : List Byte) : (segmentBytes code p).length = p.length + 4 := by
  simp [segmentBytes, be16Bytes]

theorem quantPayload_length (n : Nat) : (quantPayload ((streamTables n).map fun t => (t, quantTable t))).length = if n = 1 then 65 else 130 := by
  unfold streamTables
  split <;> rfl

theorem huffPayload_length (n : Nat) : (huffPayload ((streamTables n).flatMap huffPair)).length = if n = 1 then 208 else 416 := by
  unfold streamTables
  split <;> decide +kernel

/-- The header's length by component count. -/
theorem streamHeader_length (width height n : Nat) :
    (streamHeader width height n).length = (if n = 1 then 319 else 592) + 5 * n := by
  have tables : (if n = 1 then [0] else [0, 1]) = streamTables n := rfl
  simp only [streamHeader, tables, List.length_append, segmentBytes_length, quantPayload_length, framePayload_length, huffPayload_length,
    scanPayload_length, List.length_map, List.length_range, List.length_cons, List.length_nil]
  split <;> omega

theorem streamHeader_length_cases (width height : Nat) {n : Nat} (positive : 1 ≤ n) (le_four : n ≤ 4) :
    (streamHeader width height n).length = (match (generalizing := false) n with | 1 => 324 | 2 => 602 | 3 => 607 | _ => 612) := by
  rw [streamHeader_length]
  interval_cases n <;> rfl

end Sys2Proof.Machine
end

section
/-! SUPPORT. The bits of one block (45_encoder R178): what the entropy encoder writes, and when every symbol has a code (R179). -/

namespace Sys2Proof.Machine

/-! ### Bits written -/

/-- `e'` is `e` after these bits were put (R180, R181): the bits pending before and the bits put have come out as whole data bytes, stuffed,
and fewer than eight stay pending. -/
def Wrote (e e' : Encoder) (bits : List Bool) : Prop :=
  ∃ (data : List Byte) (wacc : List Bool), e' = { e with out := e.out ++ data.flatMap stuffed, wacc := wacc } ∧ wacc.length < 8
    ∧ data.flatMap bitsOf ++ wacc = e.wacc ++ bits

namespace Wrote

theorem none {e : Encoder} (short : e.wacc.length < 8) : Wrote e e [] := ⟨[], e.wacc, by simp, short, by simp⟩

theorem short {e e' : Encoder} {bits : List Bool} (h : Wrote e e' bits) : e'.wacc.length < 8 := by
  obtain ⟨data, wacc, rfl, lt, -⟩ := h
  exact lt

theorem epred {e e' : Encoder} {bits : List Bool} (h : Wrote e e' bits) : e'.epred = e.epred := by
  obtain ⟨data, wacc, rfl, -, -⟩ := h
  rfl

theorem trans {e e' e'' : Encoder} {bits more : List Bool} (h : Wrote e e' bits) (h' : Wrote e' e'' more) : Wrote e e'' (bits ++ more) := by
  obtain ⟨data, wacc, rfl, -, eq⟩ := h
  obtain ⟨data', wacc', rfl, lt, eq'⟩ := h'
  refine ⟨data ++ data', wacc', by simp, lt, ?_⟩
  rw [List.flatMap_append, List.append_assoc, eq', ← List.append_assoc, eq, List.append_assoc]

/-- No bit depends on the predictors. -/
theorem withPred {e e' : Encoder} {bits : List Bool} (h : Wrote e e' bits) (p : Vector Int 4) :
    Wrote { e with epred := p } { e' with epred := p } bits := by
  obtain ⟨data, wacc, rfl, lt, eq⟩ := h
  exact ⟨data, wacc, rfl, lt, eq⟩

theorem putBits {e : Encoder} (short : e.wacc.length < 8) (value w : Nat) : Wrote e (e.putBits value w) (bitsOfValue value w) :=
  putBits_eq short value w

theorem amplitude {e : Encoder} (short : e.wacc.length < 8) (v : Int) :
    Wrote e (e.putBits (amplitudeBits v (bitlen v)) (bitlen v)) (amplitudeCode v) := putBits short _ _

/-- A flush writes the 1-bits that complete a byte (R182). -/
theorem flushBits {e : Encoder} (short : e.wacc.length < 8) :
    e.flushBits.wacc = [] ∧ ∃ pad, pad < 8 ∧ Wrote e e.flushBits (List.replicate pad true) := by
  obtain ⟨-, empty, pending⟩ := bitWriterKeepsEveryBit e short
  by_cases h : e.wacc = []
  · rw [empty h]
    exact ⟨h, 0, by decide, none short⟩
  · obtain ⟨b, bits, eq⟩ := pending h
    have positive := List.length_pos_iff.2 h
    rw [eq]
    exact ⟨rfl, 8 - e.wacc.length, by omega, [b], [], by simp [stuffed], by simp, by simpa using bits⟩

end Wrote

/-! ### Symbols -/

theorem putSymbol_wrote {t : HuffTable} {v : Nat} {e e' : Encoder} (short : e.wacc.length < 8) (h : putSymbol t v e = .ok e') :
    ∃ code, codeBits t v = some code ∧ Wrote e e' code := by
  obtain ⟨code, w, found, rfl⟩ := putSymbol_ok.1 h
  exact ⟨_, codeBits_of_huffEncode found, .putBits short code w⟩

theorem putSymbol_completes {t : HuffTable} {v : Nat} (h : (huffEncode t v).isSome = true) (e : Encoder) : ∃ e', putSymbol t v e = .ok e' := by
  obtain ⟨⟨code, w⟩, found⟩ := Option.isSome_iff_exists.1 h
  exact ⟨_, putSymbol_ok.2 ⟨code, w, found, rfl⟩⟩

/-- `n` ZRL symbols, before a rest with a nonzero coefficient, stand for `16 n` zeros. -/
theorem putZrl_wrote {t : HuffTable} {n : Nat} {e e' : Encoder} (short : e.wacc.length < 8) (h : putZrl t n e = .ok e') :
    ∃ bits, Wrote e e' bits ∧ ∀ {rest more}, (∃ z ∈ rest, z ≠ 0) → AcCoded t rest more →
      AcCoded t (List.replicate (16 * n) 0 ++ rest) (bits ++ more) := by
  induction n generalizing e with
  | zero =>
    cases h
    exact ⟨[], .none short, fun _ coded => coded⟩
  | succ n ih =>
    obtain ⟨e₁, first, others⟩ := EncAct.andThen_ok.1 h
    obtain ⟨code, found, wrote⟩ := putSymbol_wrote short first
    obtain ⟨bits, wrote', coded⟩ := ih wrote.short others
    refine ⟨code ++ bits, wrote.trans wrote', fun {rest more} nonzero h => ?_⟩
    have zeros : List.replicate (16 * (n + 1)) (0 : Int) = List.replicate 16 0 ++ List.replicate (16 * n) 0 := by
      rw [List.replicate_append_replicate, Nat.mul_succ, Nat.add_comm]
    obtain ⟨z, mem, ne⟩ := nonzero
    rw [zeros, List.append_assoc, List.append_assoc]
    exact .zrl _ _ _ ⟨z, List.mem_append_right _ mem, ne⟩ found (coded ⟨z, mem, ne⟩ h)

theorem putZrl_completes {t : HuffTable} (zrl : (huffEncode t 0xF0).isSome = true) (n : Nat) (e : Encoder) : ∃ e', putZrl t n e = .ok e' := by
  induction n generalizing e with
  | zero => exact ⟨e, rfl⟩
  | succ n ih =>
    obtain ⟨e₁, first⟩ := putSymbol_completes zrl e
    obtain ⟨e', others⟩ := ih e₁
    exact ⟨e', EncAct.andThen_ok.2 ⟨e₁, first, others⟩⟩

/-! ### The AC coefficients -/

theorem encodeAcFrom_zero (t : HuffTable) (run : Nat) (zs : List Int) (e : Encoder) :
    encodeAcFrom t run (0 :: zs) e = encodeAcFrom t (run + 1) zs e := if_pos rfl

/-- A nonzero coefficient: ZRLs, the run/size code, the amplitude, then the rest. -/
theorem encodeAcFrom_nonzero_ok {t : HuffTable} {run : Nat} {z : Int} {zs : List Int} {e e' : Encoder} (nonzero : z ≠ 0) :
    encodeAcFrom t run (z :: zs) e = .ok e' ↔ ∃ e₁, putZrl t (run / 16) e = .ok e₁
      ∧ ∃ e₂, putSymbol t (16 * (run % 16) + bitlen z) e₁ = .ok e₂
      ∧ encodeAcFrom t 0 zs (e₂.putBits (amplitudeBits z (bitlen z)) (bitlen z)) = .ok e' := by
  rw [encodeAcFrom, if_neg nonzero]
  simp only [EncAct.andThen_ok]

theorem replicate_zero_succ_append (run : Nat) (zs : List Int) :
    List.replicate (run + 1) 0 ++ zs = List.replicate run 0 ++ 0 :: zs := by
  rw [List.replicate_succ', List.append_assoc, List.singleton_append]

/-- The bits written are those of the run of zeros and the coefficients after it. -/
theorem encodeAcFrom_wrote {t : HuffTable} {run : Nat} {zs : List Int} {e e' : Encoder} (short : e.wacc.length < 8)
    (h : encodeAcFrom t run zs e = .ok e') : ∃ bits, Wrote e e' bits ∧ AcCoded t (List.replicate run 0 ++ zs) bits := by
  induction zs generalizing run e with
  | nil =>
    rw [encodeAcFrom] at h
    rw [List.append_nil]
    split at h
    case isTrue positive =>
      obtain ⟨code, found, wrote⟩ := putSymbol_wrote short h
      exact ⟨code, wrote, .eob _ _ (by simpa using positive.ne') (fun z mem => List.eq_of_mem_replicate mem) found⟩
    case isFalse none =>
      obtain rfl : run = 0 := by omega
      cases h
      exact ⟨[], .none short, .done⟩
  | cons z zs ih =>
    by_cases zero : z = 0
    · subst zero
      rw [encodeAcFrom_zero] at h
      rw [← replicate_zero_succ_append]
      exact ih short h
    · obtain ⟨e₁, zrls, e₂, symbol, others⟩ := (encodeAcFrom_nonzero_ok zero).1 h
      obtain ⟨zrlBits, wroteZrls, zrlCoded⟩ := putZrl_wrote short zrls
      obtain ⟨code, found, wroteCode⟩ := putSymbol_wrote wroteZrls.short symbol
      have wroteAmplitude := Wrote.amplitude wroteCode.short z
      obtain ⟨more, wroteMore, coded⟩ := ih wroteAmplitude.short others
      have zeros : List.replicate run (0 : Int) = List.replicate (16 * (run / 16)) 0 ++ List.replicate (run % 16) 0 := by
        rw [List.replicate_append_replicate, Nat.div_add_mod]
      refine ⟨_, wroteZrls.trans ((wroteCode.trans wroteAmplitude).trans wroteMore), ?_⟩
      rw [zeros, List.append_assoc]
      exact zrlCoded ⟨z, by simp, zero⟩ (.coef _ _ _ _ _ (by omega) zero found coded)

/-- The symbols the AC coefficients need when their bit lengths are at most 10 (R179). -/
structure AcComplete (t : HuffTable) : Prop where
  zrl : (huffEncode t 0xF0).isSome = true
  eob : (huffEncode t 0x00).isSome = true
  coef : ∀ {run size}, run < 16 → 1 ≤ size → size ≤ 10 → (huffEncode t (16 * run + size)).isSome = true

theorem stdAc_complete {c : Nat} (h : c < 2) : AcComplete (stdAc c) where
  zrl := (stdAc_hasZrlEob c h).1
  eob := (stdAc_hasZrlEob c h).2
  coef {run size} short positive small := by
    have code := stdAc_hasCode c h run short (size - 1) (by omega)
    rwa [Nat.sub_add_cancel positive] at code

theorem bitlen_pos {z : Int} (h : z ≠ 0) : 1 ≤ bitlen z := by
  rw [bitlen, if_neg h]
  omega

theorem encodeAcFrom_completes {t : HuffTable} (complete : AcComplete t) {zs : List Int} (small : ∀ z ∈ zs, bitlen z ≤ 10) (run : Nat)
    (e : Encoder) : ∃ e', encodeAcFrom t run zs e = .ok e' := by
  induction zs generalizing run e with
  | nil =>
    rw [encodeAcFrom]
    split
    · exact putSymbol_completes complete.eob e
    · exact ⟨e, rfl⟩
  | cons z zs ih =>
    obtain ⟨smallHead, smallTail⟩ := List.forall_mem_cons.1 small
    by_cases zero : z = 0
    · subst zero
      rw [encodeAcFrom_zero]
      exact ih smallTail _ e
    · obtain ⟨e₁, zrls⟩ := putZrl_completes complete.zrl (run / 16) e
      obtain ⟨e₂, symbol⟩ := putSymbol_completes (complete.coef (Nat.mod_lt run (by decide)) (bitlen_pos zero) smallHead) e₁
      obtain ⟨e', others⟩ := ih smallTail 0 _
      exact ⟨e', (encodeAcFrom_nonzero_ok zero).2 ⟨e₁, zrls, e₂, symbol, others⟩⟩

/-! ### One block -/

theorem encodeDc_ok {c : Nat} {dc : Int} {e e' : Encoder} : encodeDc c dc e = .ok e' ↔
    ∃ e₁, putSymbol (stdDc (sel c)) (bitlen (dc - predOf e c)) { e with epred := e.epred.setIfInBounds c dc } = .ok e₁
      ∧ e' = e₁.putBits (amplitudeBits (dc - predOf e c) (bitlen (dc - predOf e c))) (bitlen (dc - predOf e c)) := by
  simp only [encodeDc, EncAct.andThen_ok, EncAct.ok.injEq, eq_comm (b := e')]

/-- A block whose zig-zag coefficients are `dc` and `acs`: the first, then the others. -/
theorem encodeBlock_ok {cfg : Params} {c : Nat} {blk : Vector Byte 64} {dc : Int} {acs : List Int} {e e' : Encoder}
    (coefs : quantisedZigzag cfg c blk = dc :: acs) : encodeBlock cfg c blk e = .ok e' ↔
      ∃ e₁, encodeDc c dc e = .ok e₁ ∧ encodeAcFrom (stdAc (sel c)) 0 acs e₁ = .ok e' := by
  simp only [encodeBlock, coefs, EncAct.andThen_ok]
  rfl

/-- A block sets its component's predictor and writes its bits. -/
theorem encodeBlock_wrote {cfg : Params} {c : Nat} {blk : Vector Byte 64} {dc : Int} {acs : List Int} {e e' : Encoder}
    (coefs : quantisedZigzag cfg c blk = dc :: acs) (short : e.wacc.length < 8) (h : encodeBlock cfg c blk e = .ok e') :
    ∃ bits, Wrote { e with epred := e.epred.setIfInBounds c dc } e' bits
      ∧ BlockCoded (tableSelector c) (dc - predOf e c) acs bits := by
  obtain ⟨_, first, others⟩ := (encodeBlock_ok coefs).1 h
  obtain ⟨e₁, symbol, rfl⟩ := encodeDc_ok.1 first
  obtain ⟨code, found, wroteCode⟩ := putSymbol_wrote (e := { e with epred := e.epred.setIfInBounds c dc }) short symbol
  have wroteDc := wroteCode.trans (.amplitude wroteCode.short (dc - predOf e c))
  obtain ⟨rest, wroteAcs, coded⟩ := encodeAcFrom_wrote wroteDc.short others
  exact ⟨_, wroteDc.trans wroteAcs, code, rest, sel_eq c ▸ found, sel_eq c ▸ coded, rfl⟩

theorem sel_lt_two (c : Nat) : sel c < 2 := by
  unfold sel
  split <;> decide

theorem encodeBlock_completes {cfg : Params} {c : Nat} {blk : Vector Byte 64} {dc : Int} {acs : List Int} {e : Encoder}
    (coefs : quantisedZigzag cfg c blk = dc :: acs) (smallDc : bitlen (dc - predOf e c) ≤ 11) (smallAcs : ∀ z ∈ acs, bitlen z ≤ 10) :
    ∃ e', encodeBlock cfg c blk e = .ok e' := by
  obtain ⟨e₁, symbol⟩ := putSymbol_completes (stdDc_hasCode _ (sel_lt_two c) _ (Nat.lt_succ_of_le smallDc))
    { e with epred := e.epred.setIfInBounds c dc }
  obtain ⟨e', others⟩ := encodeAcFrom_completes (stdAc_complete (sel_lt_two c)) smallAcs 0 _
  exact ⟨e', (encodeBlock_ok coefs).2 ⟨_, encodeDc_ok.2 ⟨e₁, symbol, rfl⟩, others⟩⟩

end Sys2Proof.Machine
end

section
/-! SUPPORT. The blocks of an image in stream order (45_encoder R175 to R177), and the whole stream (R166, R182). -/

namespace Sys2Proof.Machine

/-! ### The blocks -/

/-- The row, column and component of block `i` (R176). -/
def blockPlace (src : SrcImage) (i : Nat) : Nat × Nat × Nat :=
  (i / src.ncomp / ceilDiv src.width 8, i / src.ncomp % ceilDiv src.width 8, i % src.ncomp)

/-- The samples of block `i`. -/
def extractedBlock (src : SrcImage) (i : Nat) : Vector Byte 64 :=
  extractBlock src (i % src.ncomp) (i / src.ncomp % ceilDiv src.width 8) (i / src.ncomp / ceilDiv src.width 8)

theorem extractedBlock_levelShifted (src : SrcImage) (i : Nat) :
    ((extractedBlock src i).map fun b => (b.toNat : Int) - 128) = sourceBlock src i := by
  ext p hp
  simp only [extractedBlock, extractBlock, srcRead, sourceBlock, Vector.getElem_map, Vector.getElem_ofFn]

theorem zigzag_eq_map_zigzagPos : Rom.zigzag = (List.finRange 64).map fun k => zigzagPos k.val := by decide +kernel

/-- The coefficients of block `i` in zig-zag order are those of `sourceCoef`. -/
theorem quantisedZigzag_extractedBlock (cfg : Params) (src : SrcImage) (i : Nat) :
    quantisedZigzag cfg (i % src.ncomp) (extractedBlock src i)
      = sourceCoef cfg src i 0 :: (List.finRange 63).map fun k => sourceCoef cfg src i k.succ := by
  have coef : ∀ k : Fin 64, (quantise cfg.quantRound (forwardDct cfg (sourceBlock src i)) (stdQ (sel (i % src.ncomp))))[zigzagPos k.val]
      = sourceCoef cfg src i k := fun k => by rw [quantise_get, stdQ_zigzag, sourceCoef]
  rw [quantisedZigzag, extractedBlock_levelShifted, zigzag_eq_map_zigzagPos, List.map_map]
  simp only [Function.comp_def, coef]
  rw [List.finRange_succ, List.map_cons, List.map_map]
  rfl

/-- What the predictor of its component holds before block `j`: the first coefficient of that component's block before it (R178). -/
def previousDc (cfg : Params) (src : SrcImage) (j : Nat) : Int := if j < src.ncomp then 0 else sourceCoef cfg src (j - src.ncomp) 0

/-- The string of block `i` (R178). -/
def SourceBlockCoded (cfg : Params) (src : SrcImage) (i : Nat) (bits : List Bool) : Prop :=
  BlockCoded (tableSelector (i % src.ncomp)) (sourceCoef cfg src i 0 - previousDc cfg src i)
    ((List.finRange 63).map fun k => sourceCoef cfg src i k.succ) bits

/-- The encoder before block `i`: fewer than eight bits pending, and each component's predictor is the one its next block needs. -/
structure ReadyFor (cfg : Params) (src : SrcImage) (i : Nat) (e : Encoder) : Prop where
  short : e.wacc.length < 8
  predictors : ∀ j, i ≤ j → j < i + src.ncomp → predOf e (j % src.ncomp) = previousDc cfg src j

section Blocks
variable {cfg : Params} {src : SrcImage} {i m : Nat} {e e' : Encoder}

theorem readyFor_zero (pending : e.wacc = []) (fresh : e.epred = Vector.replicate 4 0) : ReadyFor cfg src 0 e where
  short := by simp [pending]
  predictors j _ first := by
    rw [previousDc, if_pos (by omega), predOf, fresh, Vector.toList_replicate, List.getD_eq_getElem?_getD,
      List.getElem?_getD_replicate_default_eq]

/-- A block sets its component's predictor, which the next block of that component, `ncomp` places on, needs. -/
theorem ReadyFor.next (ready : ReadyFor cfg src i e) (positive : 1 ≤ src.ncomp) (le_four : src.ncomp ≤ 4) (short : e'.wacc.length < 8)
    (predictor : e'.epred = e.epred.setIfInBounds (i % src.ncomp) (sourceCoef cfg src i 0)) : ReadyFor cfg src (i + 1) e' where
  short := short
  predictors j low high := by
    have component : i % src.ncomp < 4 := (Nat.mod_lt i positive).trans_le le_four
    have set := predOf_set e (j % src.ncomp) (sourceCoef cfg src i 0) component
    rw [← predictor] at set
    rw [show predOf e' _ = _ from set]
    by_cases last : j = i + src.ncomp
    · subst last
      rw [if_pos (Nat.add_mod_right ..), previousDc, if_neg (by omega), Nat.add_sub_cancel]
    · rw [if_neg, ready.predictors j (by omega) (by omega)]
      intro same
      have gap := Nat.sub_mod_eq_zero_of_mod_eq same
      rw [Nat.mod_eq_of_lt (by omega)] at gap
      omega

/-- Block `i` on an encoder that is ready for it. -/
theorem ReadyFor.block_wrote (ready : ReadyFor cfg src i e) (positive : 1 ≤ src.ncomp) (le_four : src.ncomp ≤ 4)
    (h : encodeBlock cfg (i % src.ncomp) (extractedBlock src i) e = .ok e') :
    ReadyFor cfg src (i + 1) e' ∧ ∃ bits p, Wrote { e with epred := p } e' bits ∧ SourceBlockCoded cfg src i bits := by
  obtain ⟨bits, wrote, coded⟩ := encodeBlock_wrote (quantisedZigzag_extractedBlock cfg src i) ready.short h
  rw [ready.predictors i le_rfl (by omega)] at coded
  exact ⟨ready.next positive le_four wrote.short wrote.epred, bits, _, wrote, coded⟩

theorem encodeBlocks_cons_ok {rest : List (Nat × Nat × Nat)} : encodeBlocks cfg src (blockPlace src i :: rest) e = .ok e' ↔
    ∃ e₁, encodeBlock cfg (i % src.ncomp) (extractedBlock src i) e = .ok e₁ ∧ encodeBlocks cfg src rest e₁ = .ok e' := EncAct.andThen_ok

/-- The blocks from `i` on write one string each. -/
theorem encodeBlocks_wrote (positive : 1 ≤ src.ncomp) (le_four : src.ncomp ≤ 4) (ready : ReadyFor cfg src i e)
    (h : encodeBlocks cfg src ((List.range' i m).map (blockPlace src)) e = .ok e') :
    ∃ (blocks : List (List Bool)) (p : Vector Int 4), Wrote { e with epred := p } e' blocks.flatten ∧ blocks.length = m
      ∧ ∀ k bits, blocks[k]? = some bits → SourceBlockCoded cfg src (i + k) bits := by
  induction m generalizing i e with
  | zero =>
    cases h
    exact ⟨[], _, .none ready.short, rfl, nofun⟩
  | succ m ih =>
    obtain ⟨e₁, first, others⟩ := encodeBlocks_cons_ok.1 h
    obtain ⟨ready', bits, p, wrote, coded⟩ := ready.block_wrote positive le_four first
    obtain ⟨blocks, p', wrote', length, codeds⟩ := ih ready' others
    refine ⟨bits :: blocks, p', (wrote.withPred p').trans wrote', by rw [List.length_cons, length], fun k bits' at_k => ?_⟩
    cases k with
    | zero =>
      cases at_k
      exact coded
    | succ k =>
      rw [show i + (k + 1) = i + 1 + k by omega]
      exact codeds k bits' at_k

/-- The blocks from `i` on are encoded when their coefficients are in the range of R179. -/
theorem encodeBlocks_completes (positive : 1 ≤ src.ncomp) (le_four : src.ncomp ≤ 4) (ready : ReadyFor cfg src i e)
    (small : ∀ j, i ≤ j → j < i + m → bitlen (sourceCoef cfg src j 0 - previousDc cfg src j) ≤ 11
      ∧ ∀ k : Fin 64, k ≠ 0 → bitlen (sourceCoef cfg src j k) ≤ 10) :
    ∃ e', encodeBlocks cfg src ((List.range' i m).map (blockPlace src)) e = .ok e' := by
  induction m generalizing i e with
  | zero => exact ⟨e, rfl⟩
  | succ m ih =>
    obtain ⟨smallDc, smallAcs⟩ := small i le_rfl (by omega)
    rw [← ready.predictors i le_rfl (by omega)] at smallDc
    obtain ⟨e₁, first⟩ := encodeBlock_completes (quantisedZigzag_extractedBlock cfg src i) smallDc <| by
      simpa using fun k => smallAcs k.succ (Fin.succ_ne_zero k)
    obtain ⟨e', others⟩ := ih (ready.block_wrote positive le_four first).1 fun j low high => small j (by omega) (by omega)
    exact ⟨e', encodeBlocks_cons_ok.2 ⟨e₁, first, others⟩⟩

end Blocks

/-! ### The stream -/

/-- The number of blocks of an image (R176). -/
def blockCount (src : SrcImage) : Nat := ceilDiv src.height 8 * ceilDiv src.width 8 * src.ncomp

theorem blockOrder_eq_range' (src : SrcImage) : blockOrder src = (List.range' 0 (blockCount src)).map (blockPlace src) := by
  rw [blockOrder_eq, List.range_eq_range']
  rfl

/-- The encoder after the header segments is ready for the first block. -/
theorem readyFor_afterHeaders (cfg : Params) (src : SrcImage) (e : Encoder) (bs : List Byte) :
    ReadyFor cfg src 0 (e.restart.append bs) := readyFor_zero rfl rfl

/-- An encodable image whose coefficients are in the range of R179 is encoded. -/
theorem encode_completes {cfg : Params} {e : Encoder} (inside : encodable e.src = true)
    (small : ∀ j < blockCount (encodedSource cfg e.src),
      bitlen (sourceCoef cfg (encodedSource cfg e.src) j 0 - previousDc cfg (encodedSource cfg e.src) j) ≤ 11
        ∧ ∀ k : Fin 64, k ≠ 0 → bitlen (sourceCoef cfg (encodedSource cfg e.src) j k) ≤ 10) :
    ∃ e', Encoder.encode cfg e = .ok e' := by
  obtain ⟨positive, le_four⟩ := encodedSource_ncomp cfg inside
  obtain ⟨e₁, coded⟩ := encodeBlocks_completes (m := blockCount (encodedSource cfg e.src)) positive le_four
    (readyFor_afterHeaders cfg _ e _) fun j _ high => small j (by omega)
  rw [← blockOrder_eq_range'] at coded
  exact ⟨_, encode_ok.2 ⟨inside, e₁, coded, rfl⟩⟩

/-- A finished stream: the header, the blocks' strings in order, padded and stuffed, and EOI. -/
theorem encode_wrote {cfg : Params} {e e' : Encoder} {src : SrcImage} (source : encodedSource cfg e.src = src)
    (done : Encoder.encode cfg e = .ok e') : e'.wacc = [] ∧ e'.src = e.src ∧ ∃ (data : List Byte) (blocks : List (List Bool)) (pad : Nat),
      e'.out = e.out ++ streamHeader src.width src.height src.ncomp ++ data.flatMap stuffed ++ [0xFF, 0xD9]
      ∧ data.flatMap bitsOf = blocks.flatten ++ List.replicate pad true ∧ pad < 8 ∧ blocks.length = blockCount src
      ∧ ∀ i bits, blocks[i]? = some bits → SourceBlockCoded cfg src i bits := by
  obtain ⟨inside, e₁, coded, rfl⟩ := encode_ok.1 done
  obtain ⟨positive, le_four⟩ := encodedSource_ncomp cfg inside
  rw [source] at positive le_four coded
  rw [blockOrder_eq_range', headers_eq] at coded
  obtain ⟨blocks, p, wrote, length, strings⟩ := encodeBlocks_wrote positive le_four (readyFor_afterHeaders cfg src e _) coded
  obtain ⟨flushed, pad, lt, padded⟩ := Wrote.flushBits wrote.short
  obtain ⟨data, wacc, eq, -, bits⟩ := wrote.trans padded
  rw [eq] at flushed ⊢
  obtain rfl : wacc = [] := flushed
  refine ⟨rfl, rfl, data, blocks, pad, rfl, (List.append_nil _).symm.trans bits, lt, length, fun i string at_i => ?_⟩
  simpa only [Nat.zero_add] using strings i string at_i

/-- Settles O59: the stream is that of `encode_wrote`, and within the range of R179 every symbol has a code. -/
theorem encodedStreamLayout : Obligations.EncodedStreamLayout := by
  intro s e ops idle pending constructed src n total coef diff header
  refine ⟨fun w0 w1 h0 h1 n0 n1 samples small => ?_, fun e' done => ?_⟩
  · exact encode_completes ((encodable_iff_encodedSource s.cfg e.src).2 ⟨w0, w1, h0, h1, n0, n1, samples⟩) small
  · have answered : Encoder.encode (takeOp ops s).cfg e = .ok e' := done
    obtain ⟨flushed, kept, data, blocks, pad, out, bits, lt, length, strings⟩ := encode_wrote rfl done
    obtain ⟨n0, n1⟩ := encodedSource_ncomp s.cfg (encode_ok.1 done).1
    refine ⟨?_, flushed, kept, streamHeader_length_cases _ _ n0 n1, data.flatMap stuffed, blocks, pad, out, noMarker_flatMap_stuffed data,
      by rw [unstuff_flatMap_stuffed, bits], lt, length, strings⟩
    simp only [step_encode idle pending constructed, hostEncode, answered]
    rfl

end Sys2Proof.Machine
end

section
/-! SUPPORT. Every outcome of a turn of the running Feed (46_host_interface R187): it goes on with fewer bits left to read, meets a marker in the
scan, raises, delivers the image, returns, or faults; it is never a refusal. -/

namespace Sys2Proof.Machine

/-! ### The outcomes -/

/-- The bits a Feed may still read (70_reset_and_hazards R223): 8 for each supplied byte not yet consumed, and those in the accumulator. -/
def Decoder.left (d : Decoder) : Nat := 8 * (d.avail - d.pos) + d.nbits

/-- What a segment state adds to the turns left: a marker leads from `SCAN` to `MARKER`, an error or EOI to the last turn, which returns. -/
def Seg.rank : Seg → Nat
  | .scan => 3
  | .marker | .dqt | .dnl | .dri | .exp | .sof | .dht | .dac | .sos | .app0 | .com => 2
  | .done | .error => 1

theorem Seg.rank_pos (g : Seg) : 1 ≤ g.rank := by cases g <;> decide

theorem Seg.rank_le (g : Seg) : g.rank ≤ 3 := by cases g <;> decide

theorem Seg.rank_of_live {g : Seg} (live : g.final = false) : 2 ≤ g.rank := by
  cases g <;> simp_all [Seg.final, Seg.rank]

/-- A bound on the turns of the Feed up to its return. -/
def Decoder.turnsLeft (d : Decoder) : Nat := d.left + d.seg.rank

/-- Between two units of work of the scan the next one needs a bit (the clause `settled` of `ScanOk`; log 1). -/
def Decoder.Settled (d : Decoder) : Prop := d.seg = .scan → d.sub = .magnitude ∨ d.sub = .amplitude ∧ d.ampn < d.mag

/-- `u` is a point of the unit of work that began at `s`: the host has seen nothing of it, and no more is left to read. -/
structure Within (s u : State) : Prop where
  host : u.host = s.host
  completed : u.dec.completed = s.dec.completed
  left : u.dec.left ≤ s.dec.left

/-- A point of the unit of work after what it reads: fewer turns are left, whatever the segment state it ends in. -/
structure Advances (s u : State) : Prop extends Within s u where
  less : s.dec.Settled → u.dec.left + 3 < s.dec.turnsLeft

/-- Every outcome of a turn of the Feed. -/
inductive TurnEnds (s : State) : Host.Outcome State Fault Refusal → Prop
  | goes {u : State} : Advances s u → TurnEnds s (.next u)
  | meetsMarker : s.dec.seg = .scan → TurnEnds s (.next (s.goto .marker))
  | raises {u : State} (e : Err) : Within s u → TurnEnds s (.next (errorEntry e u))
  | delivers {u : State} {img : Image} : Within s u → u.dec.seg = .done → u.dec.img = some img →
      TurnEnds s (.next (signalCompletion (.image img) u))
  | returns : s.dec.seg.final = true ∨ s.dec.eos = false → TurnEnds s (.next (feedReturn s))
  | faults (f : Fault) : TurnEnds s (.fault f)

theorem TurnEnds.not_refused {s : State} {r : Refusal} : ¬TurnEnds s (.refused r) := nofun

section
variable {s u : State} {j : Nat} {c : Component}

theorem within_withDec {d : Decoder} (completed : d.completed = s.dec.completed) (left : d.left ≤ s.dec.left) : Within s (s.withDec d) :=
  ⟨rfl, completed, left⟩

theorem within_refl (s : State) : Within s s := ⟨rfl, rfl, Nat.le_refl _⟩

theorem Advances.withDec (h : Advances s u) {d : Decoder} (completed : d.completed = u.dec.completed) (left : d.left ≤ u.dec.left) :
    Advances s (u.withDec d) :=
  ⟨⟨h.host, completed.trans h.completed, left.trans h.left⟩, fun settled => (Nat.add_le_add_right left 3).trans_lt (h.less settled)⟩

/-- A decoder that differs in registers which no clause of `Advances` speaks of. -/
theorem Advances.withRegisters (h : Advances s u) {d : Decoder} (completed : d.completed = u.dec.completed := by rfl)
    (left : d.left = u.dec.left := by rfl) : Advances s (u.withDec d) := h.withDec completed left.le

theorem needMore_turn (s : State) : TurnEnds s (needMore s) := by
  cases eos : s.dec.eos with
  | true => exact needMore_eos eos ▸ .raises .e37 (within_refl s)
  | false => exact needMore_waiting eos ▸ .returns (.inr eos)

/-! ### The scan (42_entropy R127 to R139, 43_mcu_color R143 to R150) -/

theorem advanceCursors_left (d : Decoder) (j : Nat) (c : Component) :
    (advanceCursors d j c).completed = d.completed ∧ (advanceCursors d j c).left ≤ d.left := by
  rcases advanceCursors_cases d j c with ⟨-, h⟩ | ⟨-, ⟨-, h⟩ | ⟨-, ⟨-, h⟩ | ⟨-, h⟩⟩⟩ <;> rw [h]
  · exact ⟨rfl, Nat.le_refl _⟩
  · exact ⟨rfl, Nat.le_refl _⟩
  · exact ⟨rfl, Nat.le_refl _⟩
  · exact ⟨rfl, Nat.le_add_right _ _⟩

theorem dataUnitComplete_turn (h : Advances s u) : TurnEnds s (dataUnitComplete u j c) := by
  unfold dataUnitComplete
  split
  · exact .raises .e36 h.toWithin
  · split
    · exact .faults _
    · split
      · exact .faults _
      · obtain ⟨completed, left⟩ := advanceCursors_left { u.dec with img := some _ } j c
        exact .goes (h.withDec completed left)

theorem addCoef_turn {run : Nat} {v : Int} (h : Advances s u) : TurnEnds s (addCoef u j c run v) := by
  unfold addCoef
  split
  · exact .raises .e31 h.toWithin
  · dsimp only
    split
    · split
      · exact dataUnitComplete_turn h.withRegisters
      · exact .goes h.withRegisters
    · exact .raises .e35 h.withRegisters.toWithin

theorem resolveAmplitude_turn (h : Advances s u) : TurnEnds s (resolveAmplitude u j c) := by
  unfold resolveAmplitude
  dsimp only
  split
  · split
    · exact addCoef_turn h.withRegisters
    · exact .raises .e35 h.toWithin
  · exact addCoef_turn h.withRegisters

theorem eobStep_turn (h : Advances s u) : TurnEnds s (eobStep u j c) := dataUnitComplete_turn h.withRegisters

theorem settle_turn (h : Advances s u) : TurnEnds s (settle u) := by
  unfold settle
  split
  · split
    · exact .faults _
    · split
      · exact .goes h
      · split
        · exact .goes h
        · exact resolveAmplitude_turn h
      · exact eobStep_turn h
  · exact .goes h

theorem magnitudeBit_turn {b : Bool} (h : Advances s u) : TurnEnds s (magnitudeBit u c b) := by
  cases lookup : codeLookup u.dec c b with
  | more => exact magnitudeBit_more lookup ▸ .goes h.withRegisters
  | error e => exact magnitudeBit_error lookup ▸ .raises e h.withRegisters.toWithin
  | symbol v =>
    rw [magnitudeBit_symbol lookup]
    have cleared : Advances s (u.withDec (clearCode u.dec)) := h.withRegisters
    rcases exec_symbol u.dec.k v (u.withDec (clearCode u.dec)) with ⟨e, he⟩ | he | ⟨run, mag, -, -, he⟩ <;> rw [he]
    · show TurnEnds s (settle (errorEntry e (u.withDec (clearCode u.dec))))
      rw [settle_of_not_scan (by simp [errorEntry_eq])]
      exact .raises e cleared.toWithin
    · exact settle_turn cleared.withRegisters
    · exact settle_turn cleared.withRegisters

/-- A bit is paid for with one bit of the accumulator, or with a byte that loads seven more (42_entropy R125). -/
theorem readBit_left {d d' : Decoder} {b : Bool} (h : readBit d = .bit b d') : d'.completed = d.completed ∧ d'.left < d.left := by
  rcases readBit_bit h with ⟨pending, -, rfl⟩ | ⟨empty, _, -, -, ⟨-, supplied, rfl⟩ | ⟨-, supplied, -, rfl⟩⟩ <;>
    exact ⟨rfl, by dsimp only [Decoder.left]; omega⟩

theorem withBit_turn {body : Bool → State → Host.Outcome State Fault Refusal} (scan : s.dec.seg = .scan)
    (bit : ∀ b d, Advances s (s.withDec d) → TurnEnds s (body b (s.withDec d))) : TurnEnds s (withBit s body) := by
  cases read : readBit s.dec with
  | bit b d =>
    obtain ⟨completed, less⟩ := readBit_left read
    simp only [withBit, read]
    refine bit b d ⟨within_withDec completed less.le, fun _ => ?_⟩
    simpa only [Decoder.turnsLeft, scan, Seg.rank, State.withDec_dec, Nat.add_lt_add_iff_right] using less
  | markerSeen d =>
    obtain ⟨-, -, -, -, rfl⟩ := readBit_markerSeen read
    simp only [withBit, read]
    exact .meetsMarker scan
  | hold => exact withBit_hold read body ▸ needMore_turn s
  | hole a =>
    simp only [withBit, read]
    exact .faults _

theorem scanUnit_turn (scan : s.dec.seg = .scan) : TurnEnds s (scanUnit s) := by
  have noBit : ¬s.dec.Settled → Advances s s := fun unsettled => ⟨within_refl s, fun settled => absurd settled unsettled⟩
  unfold scanUnit
  split
  · exact .faults _
  · split
    · exact withBit_turn scan fun b d => magnitudeBit_turn
    · rename_i sub
      split
      · exact withBit_turn scan fun b d read => settle_turn read.withRegisters
      · rename_i whole
        exact resolveAmplitude_turn (noBit fun settled => by simpa [sub, whole] using settled scan)
    · rename_i sub
      exact eobStep_turn (noBit fun settled => by simpa [sub] using settled scan)

/-! ### Segment handlers (40_segments R91 to R110) -/

/-- Two or more bytes consumed. -/
theorem advances_of_bytes (host : u.host = s.host) (completed : u.dec.completed = s.dec.completed) (left : u.dec.left + 16 ≤ s.dec.left) :
    Advances s u := by
  have rank := s.dec.seg.rank_pos
  exact ⟨⟨host, completed, by omega⟩, fun _ => by unfold Decoder.turnsLeft; omega⟩

/-- A handler that writes `d` and retires its segment. -/
theorem retires_turn {d : Decoder} {p : List Byte} (next : Seg) (at_pos : segmentAt s.dec p) (completed : d.completed = s.dec.completed := by rfl)
    (pos : d.pos = s.dec.pos := by rfl) (avail : d.avail = s.dec.avail := by rfl) (nbits : d.nbits ≤ s.dec.nbits := by exact Nat.le_refl _) :
    TurnEnds s (.next (segRetire (p.length + 2) next (s.withDec d))) := by
  obtain ⟨supplied, -⟩ := at_pos
  refine .goes (advances_of_bytes rfl completed ?_)
  simp only [Decoder.left, segRetire_dec_avail, segRetire_dec_pos, segRetire_dec_nbits, State.withDec_dec, pos, avail]
  omega

theorem dqtBody_turn {p : List Byte} (at_pos : segmentAt s.dec p) : TurnEnds s (dqtBody s (p.length + 2) p) := by
  unfold dqtBody
  split
  · exact .raises .e3 (within_refl s)
  · dsimp only
    split
    · exact .raises _ (within_withDec rfl (Nat.le_refl _))
    · exact retires_turn .marker at_pos

theorem dhtBody_turn {p : List Byte} (at_pos : segmentAt s.dec p) : TurnEnds s (dhtBody s (p.length + 2) p) := by
  obtain ⟨dc, ac, written⟩ := dhtEntries_eq p.length p s.dec
  unfold dhtBody
  split
  · exact .raises .e3 (within_refl s)
  · dsimp only
    rw [written]
    split
    · exact .raises _ (within_withDec rfl (Nat.le_refl _))
    · exact retires_turn .marker at_pos

theorem sofBody_turn {p : List Byte} (at_pos : segmentAt s.dec p) (mode : Mode) : TurnEnds s (sofBody mode s (p.length + 2) p) := by
  unfold sofBody
  split
  · exact .raises _ (within_refl s)
  · exact retires_turn .marker at_pos

theorem sosBody_turn {p : List Byte} (at_pos : segmentAt s.dec p) : TurnEnds s (sosBody s (p.length + 2) p) := by
  unfold sosBody
  split
  · exact .raises _ (within_refl s)
  · exact retires_turn .scan at_pos (nbits := Nat.zero_le _)

theorem app0Body_turn {p : List Byte} (at_pos : segmentAt s.dec p) : TurnEnds s (app0Body s (p.length + 2) p) := by
  unfold app0Body
  split
  · split
    · exact .raises .e30 (within_refl s)
    · exact retires_turn .marker at_pos
  · exact retires_turn (d := s.dec) .marker at_pos

theorem withSegment_turn {body : Nat → List Byte → Host.Outcome State Fault Refusal}
    (ok : ∀ p, segmentAt s.dec p → TurnEnds s (body (p.length + 2) p)) : TurnEnds s (withSegment s body) := by
  unfold withSegment
  split
  · rename_i fetched
    obtain ⟨rfl, at_pos⟩ := segFetch_ok.1 fetched
    exact ok _ at_pos
  · exact needMore_turn s
  · exact .raises .e3 (within_refl s)
  · exact .faults _

/-- In its own state a handler-selecting marker runs its handler (log 15). -/
theorem exec_handler_turn {i : Instr} (h : handlerOf i = some s.dec.seg) : TurnEnds s (exec i s) := by
  have run : ∀ {g : Seg} {body : Nat → List Byte → Host.Outcome State Fault Refusal} {marker : Host.Outcome State Fault Refusal},
      s.dec.seg = g → (∀ p, segmentAt s.dec p → TurnEnds s (body (p.length + 2) p)) →
      TurnEnds s (inHandler g s (withSegment s body) marker) :=
    fun seg ok => inHandler_of_seg seg _ _ ▸ withSegment_turn ok
  have refuse : ∀ (e : Err) (p : List Byte), segmentAt s.dec p → TurnEnds s (raise e s) := fun e _ _ => .raises e (within_refl s)
  generalize seg : s.dec.seg = g at h
  unfold handlerOf at h
  split at h <;> cases h
  · exact run seg fun _ at_pos => sofBody_turn at_pos .baseline
  · exact run seg fun _ at_pos => sofBody_turn at_pos .extended
  · exact run seg fun _ at_pos => sofBody_turn at_pos .progressive
  · exact run seg fun _ at_pos => sofBody_turn at_pos .lossless
  · exact run seg fun _ => dhtBody_turn
  · exact run seg fun _ => sosBody_turn
  · exact run seg fun _ => dqtBody_turn
  · exact run seg fun _ => app0Body_turn
  · exact run seg fun _ at_pos => retires_turn .marker at_pos
  · exact run seg (refuse .e25)
  · exact run seg (refuse .e29)
  · exact run seg (refuse .e2)
  · exact run seg (refuse .e28)

/-! ### Markers (40_segments R93 to R97) -/

/-- A marker's two bytes consumed. -/
theorem advances_marker {d : Decoder} (supplied : s.dec.pos + 2 ≤ s.dec.avail) (completed : d.completed = s.dec.completed := by rfl)
    (pos : d.pos = s.dec.pos + 2 := by rfl) (avail : d.avail = s.dec.avail := by rfl) (nbits : d.nbits = s.dec.nbits := by rfl) :
    Advances s (s.withDec d) := by
  refine advances_of_bytes rfl completed ?_
  simp only [Decoder.left, State.withDec_dec, pos, avail, nbits]
  omega

theorem execEoi_turn (supplied : s.dec.pos + 2 ≤ s.dec.avail) : TurnEnds s (execEoi s) := by
  have consumed : Advances s (s.consume 2) := advances_marker supplied
  unfold execEoi eoiBody
  split
  · split
    · exact .faults _
    · exact .delivers (u := (s.consume 2).withDec _) consumed.withRegisters.toWithin rfl rfl
  · exact .raises .e38 consumed.toWithin

/-- The marker step of a marker whose two bytes are supplied. -/
theorem exec_marker_turn {i : Instr} (marker : i.kind = .marker) (seg : s.dec.seg = .marker) (supplied : s.dec.pos + 2 ≤ s.dec.avail) :
    TurnEnds s (exec i s) := by
  cases handler : handlerOf i with
  | some g => exact soiAndSelectingMarkers.2 s i g handler seg ▸ .goes (advances_marker (s := s) supplied)
  | none =>
    rcases exec_of_dispatchedMarker marker handler with rfl | rfl | ⟨e, he⟩
    · exact .goes (advances_marker (s := s) supplied)
    · exact execEoi_turn supplied
    · exact he s ▸ .raises e (advances_marker (s := s) supplied).toWithin

theorem markerUnit_turn (seg : s.dec.seg = .marker) : TurnEnds s (markerUnit s) := by
  unfold markerUnit
  split
  · exact needMore_turn s
  · rename_i short
    split
    · rename_i b0 c _ _
      cases decoded : decodeMarker b0 c with
      | ok i =>
        unfold decodeMarker at decoded
        split at decoded <;> cases decoded
        obtain ⟨-, marker, -⟩ := read_sound .marker c
        exact exec_marker_turn marker seg (Nat.not_lt.1 short)
      | error r => exact .raises .e1 (within_refl s)
    · exact .faults _
    · exact .faults _

/-! ### The step -/

theorem unitOfWork_turn : TurnEnds s (unitOfWork s) := by
  have handler : ∀ {i : Instr} {g : Seg}, handlerOf i = some g → s.dec.seg = g → TurnEnds s (exec i s) :=
    fun h seg => exec_handler_turn (seg ▸ h)
  cases seg : s.dec.seg with
  | marker => exact unitOfWork_marker seg ▸ markerUnit_turn seg
  | sof =>
    simp only [unitOfWork, seg]
    split
    · exact handler (sofInstr_handler (by assumption)) seg
    · exact .faults _
  | scan => exact unitOfWork_scan seg ▸ scanUnit_turn seg
  | dqt => simpa only [unitOfWork, seg] using handler (i := .dqt) rfl seg
  | dnl => simpa only [unitOfWork, seg] using handler (i := .dnl) rfl seg
  | dri => simpa only [unitOfWork, seg] using handler (i := .dri) rfl seg
  | exp => simpa only [unitOfWork, seg] using handler (i := .exp) rfl seg
  | dht => simpa only [unitOfWork, seg] using handler (i := .dht) rfl seg
  | dac => simpa only [unitOfWork, seg] using handler (i := .dac) rfl seg
  | sos => simpa only [unitOfWork, seg] using handler (i := .sos) rfl seg
  | app0 => simpa only [unitOfWork, seg] using handler (i := .app0) rfl seg
  | com => simpa only [unitOfWork, seg] using handler (i := .com) rfl seg
  | done => simpa only [unitOfWork, seg] using TurnEnds.returns (.inl (by rw [seg]; rfl))
  | error => simpa only [unitOfWork, seg] using TurnEnds.returns (.inl (by rw [seg]; rfl))

/-- The inversion of a running Feed's step. -/
theorem step_turn (running : s.host.running = true) : TurnEnds s (step s) := by
  cases final : s.dec.seg.final with
  | true => exact step_of_final running final ▸ .returns (.inl final)
  | false =>
    cases cancel : s.dec.cancel with
    | true => exact step_of_cancel running final cancel ▸ .raises .e39 (within_refl s)
    | false => exact step_eq_unitOfWork running final cancel ▸ unitOfWork_turn

end

end Sys2Proof.Machine
end

section
/-! SUPPORT. The host's interface (46_host_interface R185 to R195): constructing and querying, the completion event, and the return of a
running Feed. -/

namespace Sys2Proof.Machine

/-! ### The return of a Feed (R187) -/

/-- A turn returns, or leaves fewer turns. -/
theorem turnsLeft_lt {s t : State} (running : s.host.running = true) (settled : s.dec.Settled) (h : step s = .next t) :
    t.host.running = false ∨ t.host.running = true ∧ t.dec.turnsLeft < s.dec.turnsLeft := by
  cases final : s.dec.seg.final with
  | true =>
    rw [step_of_final running final] at h
    cases h
    exact .inl rfl
  | false =>
    have rank := Seg.rank_of_live final
    have ends := step_turn running
    rw [h] at ends
    cases ends with
    | goes advances =>
      have rank' := t.dec.seg.rank_le
      have less := advances.less settled
      exact .inr ⟨by rw [advances.host, running], by unfold Decoder.turnsLeft at less ⊢; omega⟩
    | meetsMarker scan =>
      refine .inr ⟨running, ?_⟩
      rw [Decoder.turnsLeft, Decoder.turnsLeft, scan]
      exact Nat.add_lt_add_left (show Seg.marker.rank < Seg.scan.rank by decide) _
    | raises e within =>
      have left := within.left
      rw [errorEntry_eq]
      refine .inr ⟨by rw [within.host, running], ?_⟩
      simp only [Decoder.turnsLeft, Decoder.left, Seg.rank] at left rank ⊢
      omega
    | delivers within done =>
      have left := within.left
      rw [signalCompletion_eq]
      refine .inr ⟨by rw [within.host, running], ?_⟩
      simp only [Decoder.turnsLeft, Decoder.left, Seg.rank, done] at left rank ⊢
      omega
    | returns => exact .inl rfl

/-- From a safe state a running Feed's step answers a next state. -/
theorem step_answers {s : State} (safe : s.Safe) (running : s.host.running = true) : ∃ t, step s = .next t := by
  cases h : step s with
  | next t => exact ⟨t, rfl⟩
  | fault f => exact absurd h (safeStatesNeverFault s f safe)
  | refused r => exact absurd (h ▸ step_turn running) TurnEnds.not_refused

theorem run_succ_of_step {s t : State} (h : step s = .next t) (n : Nat) :
    Host.Core.run Sys2Proof.core (n + 1) s = Host.Core.run Sys2Proof.core n t := by
  simp [Host.Core.run, core, h]

theorem feed_returns_within {n : Nat} {s : State} (safe : s.Safe) (running : s.host.running = true) (bound : s.dec.turnsLeft ≤ n) :
    ∃ m t, m ≤ n ∧ Host.Core.run Sys2Proof.core m s = .next t ∧ t.host.running = false := by
  induction n generalizing s with
  | zero =>
    have rank := s.dec.seg.rank_pos
    unfold Decoder.turnsLeft at bound
    omega
  | succ n ih =>
    obtain ⟨t, h⟩ := step_answers safe running
    rcases turnsLeft_lt running safe.scan.settled h with returned | ⟨going, less⟩
    · exact ⟨1, t, by omega, run_succ_of_step h 0, returned⟩
    · obtain ⟨m, u, le, run, returned⟩ := ih (stepKeepsSafety s t safe h) going (by omega)
      exact ⟨m + 1, u, Nat.succ_le_succ le, (run_succ_of_step h m).trans run, returned⟩

/-- Settles O57: every turn leaves fewer turns, and at first they are at most the bits left and the three of `SCAN`. -/
theorem feedAlwaysReturns : Obligations.FeedAlwaysReturns := fun s safe running =>
  feed_returns_within safe running (Nat.add_le_add_left s.dec.seg.rank_le _)

/-! ### The completion event (R190) -/

/-- The events are unchanged, or a decoding completes and its one event is appended, with what the state then holds. -/
def DeliversOnce (s t : State) : Prop :=
  t.host.events = s.host.events
  ∨ (s.dec.completed = false ∧ t.dec.completed = true
    ∧ ((t.dec.seg = .error ∧ ∃ e, t.dec.error = some e ∧ t.host.events = s.host.events ++ [.error e])
      ∨ (t.dec.seg = .done ∧ ∃ img, t.dec.img = some img ∧ t.host.events = s.host.events ++ [.image img])))

theorem deliversOnce_image {s u : State} {img : Image} (host : u.host = s.host) (completed : u.dec.completed = s.dec.completed)
    (seg : u.dec.seg = .done) (present : u.dec.img = some img) : DeliversOnce s (signalCompletion (.image img) u) := by
  rw [signalCompletion_eq, completed, host]
  cases flag : s.dec.completed with
  | true => exact .inl rfl
  | false => exact .inr ⟨flag, rfl, .inr ⟨seg, img, present, rfl⟩⟩

theorem deliversOnce_error {s u : State} (e : Err) (host : u.host = s.host) (completed : u.dec.completed = s.dec.completed) :
    DeliversOnce s (errorEntry e u) := by
  rw [errorEntry_eq, completed, host]
  cases flag : s.dec.completed with
  | true => exact .inl rfl
  | false => exact .inr ⟨flag, rfl, .inl ⟨rfl, e, rfl, rfl⟩⟩

theorem hostFeed_events (bytes : List Byte) (eos : Bool) (s : State) : (hostFeed bytes eos s).host.events = s.host.events := by
  unfold hostFeed
  split
  · rfl
  · split <;> rfl

theorem hostEncode_events (e : Encoder) (s : State) : (hostEncode e s).host.events = s.host.events := by
  unfold hostEncode
  split <;> rfl

theorem hostCancel_deliversOnce (s : State) : DeliversOnce s (hostCancel s) := by
  unfold hostCancel
  split
  · exact .inl rfl
  · exact deliversOnce_error .e39 rfl rfl

theorem hostStep_deliversOnce (op : HostOp) (s : State) : Ends (DeliversOnce s) (hostStep op s) := by
  cases op with
  | feed bytes eos => exact (ends_next _ _).2 (.inl (hostFeed_events bytes eos s))
  | cancel => exact (ends_next _ _).2 (hostCancel_deliversOnce s)
  | decodeSync bytes => exact (ends_next _ _).2 (.inl (hostFeed_events bytes true (hostConstruct s)))
  | encode =>
    unfold hostStep
    dsimp only
    split
    · exact (ends_next _ _).2 (.inl (hostEncode_events _ s))
    · exact ends_refused _ _
  | _ => exact (ends_next _ _).2 (.inl rfl)

theorem TurnEnds.deliversOnce {s t : State} (h : TurnEnds s (.next t)) : DeliversOnce s t := by
  cases h with
  | goes advances => exact .inl (congrArg HostPort.events advances.host)
  | meetsMarker => exact .inl rfl
  | raises e within => exact deliversOnce_error e within.host within.completed
  | delivers within seg present => exact deliversOnce_image within.host within.completed seg present
  | returns => exact .inl rfl

/-- Settles O42: of a Feed's turns an error entry and a delivered image signal completion, of the host's operations Cancel. -/
theorem completionIsDeliveredOnce : Obligations.CompletionIsDeliveredOnce := by
  intro s t h
  cases running : s.host.running with
  | true => exact TurnEnds.deliversOnce (h ▸ step_turn running)
  | false =>
    cases pending : s.host.pending with
    | nil =>
      have idle : step s = .next s := by simp [step, running, pending]
      cases idle.symm.trans h
      exact .inl rfl
    | cons op ops =>
      rw [step_of_pending running pending] at h
      exact hostStep_deliversOnce op (takeOp ops s) t h

/-! ### Returns, Cancel and the queries (R187 to R191) -/

/-- Settles O45: the return in either final state, and Cancel in and outside them. -/
theorem returnsAndCancellation : Obligations.ReturnsAndCancellation := by
  refine fun s => ⟨fun running done => ?_, fun running error => ?_, step_of_cancel, fun ops idle pending final => ?_,
    fun ops idle pending live => ?_⟩
  · rw [step_of_final running (by rw [done]; rfl), feedReturn, feedResult, done]
  · rw [step_of_final running (by rw [error]; rfl), feedReturn, feedResult, error]
  · rw [step_of_pending idle pending]
    exact congrArg Host.Outcome.next (if_pos final)
  · rw [step_of_pending idle pending]
    exact congrArg Host.Outcome.next (if_neg (by rw [takeOp, live]; decide))

/-- Settles O46: each query is one reply. -/
theorem queriesOnlyReport : Obligations.QueriesOnlyReport := by
  rintro s ops op r idle pending (⟨rfl, rfl⟩ | ⟨rfl, rfl⟩ | ⟨rfl, rfl⟩ | ⟨rfl, rfl⟩) <;> exact step_of_pending idle pending

/-! ### Construct, DecodeSync and ConstructEncoder (R185, R192, R193) -/

theorem resetTables_undefined (t : Fin 4) : Decoder.reset.qt[t].defined = false ∧ Decoder.reset.dcTables[t].defined = false
    ∧ Decoder.reset.dcTables[t].codes = [] ∧ Decoder.reset.acTables[t].defined = false ∧ Decoder.reset.acTables[t].codes = [] := by
  simp [Decoder.reset, QTable.reset, HuffTable.reset]

theorem step_construct {s : State} {ops : List HostOp} (idle : s.host.running = false) (pending : s.host.pending = .construct :: ops) :
    step s = .next ((takeOp ops s).withDec Decoder.reset) := step_of_pending idle pending

theorem signalCompletion_running (x : Completion) (s : State) : (signalCompletion x s).host.running = s.host.running := by
  rw [signalCompletion_eq]

theorem done_or_error_of_final {g : Seg} (final : g.final = true) : g = .done ∨ g = .error := by
  cases g <;> simp_all [Seg.final]

/-- At end of stream a Feed keeps its flag and returns in a final state only. -/
theorem step_at_eos {s t : State} (running : s.host.running = true) (eos : s.dec.eos = true) (h : step s = .next t) :
    t.dec.eos = true ∧ (t.host.running = false → t.dec = s.dec ∧ (s.dec.seg = .done ∨ s.dec.seg = .error)) := by
  obtain ⟨-, kept⟩ := step_running_keeps running t h
  refine ⟨kept.trans eos, fun returned => ?_⟩
  have going : ∀ {u : State}, u.host = s.host → u.host.running ≠ false := fun host => by simp [host, running]
  have ends := step_turn running
  rw [h] at ends
  cases ends with
  | goes advances => exact absurd returned (going advances.host)
  | meetsMarker => exact absurd returned (going rfl)
  | raises e within => exact absurd ((errorEntry_running e _).symm.trans returned) (going within.host)
  | delivers within => exact absurd ((signalCompletion_running _ _).symm.trans returned) (going within.host)
  | returns final =>
    exact ⟨rfl, done_or_error_of_final (final.resolve_right (by simp [eos]))⟩

/-- Settles O47: the fresh decoder field by field, the bytes supplied to it, the turns at end of stream, and the fresh encoder. -/
theorem constructGivesResetValues : Obligations.ConstructGivesResetValues := by
  refine ⟨fun d fresh => ?_, fun s bytes ops idle pending => ⟨Memory.writeBytes [] 0 bytes, ?_, fun a => ?_⟩,
    fun s t => step_at_eos, fun s img ops idle pending => step_of_pending idle pending⟩
  · obtain rfl : d = Decoder.reset := by
      rcases fresh with reset | ⟨s, t, ops, idle, pending, h, rfl⟩
      · exact reset
      · cases (step_construct idle pending).symm.trans h
        rfl
    exact ⟨rfl, rfl, rfl, rfl, rfl, rfl, rfl, rfl, rfl, rfl, rfl, rfl, rfl, rfl, rfl, resetTables_undefined, rfl, rfl, rfl, rfl, rfl, rfl, rfl,
      rfl, rfl, rfl, rfl, rfl, rfl⟩
  · rw [step_of_pending idle pending, hostStep, hostFeed_accepted (s := hostConstruct (takeOp ops s)) true rfl (.inl rfl)]
    simp only [Decoder.supply, hostConstruct, takeOp, State.withDec, Decoder.reset, Nat.zero_add, Bool.or_true]
  · rw [Memory.read_writeBytes]
    split
    · rfl
    · rw [Memory.read_nil, List.getElem?_eq_none (by omega)]

end Sys2Proof.Machine
end

section
/-! SUPPORT. The error entry (60_exceptions R199), and the final states `DONE` and `ERROR` (60_exceptions R202, R203). -/

namespace Sys2Proof.Machine

/-! ### The error entry (R199) -/

/-- The first completion is delivered. -/
theorem signalCompletion_first {x : Completion} {s : State} (h : s.dec.completed = false) :
    signalCompletion x s =
      { s with dec := { s.dec with completed := true }, host := { s.host with events := s.host.events ++ [x] } } :=
  if_neg (by simp [h])

/-- A second completion is not delivered (46_host_interface R190). -/
theorem signalCompletion_again {x : Completion} {s : State} (h : s.dec.completed = true) : signalCompletion x s = s := if_pos h

/-- Settles O41: the entry writes the code and the state, then signals a completion, which is the first or is not delivered. -/
theorem errorEntryWrites : Obligations.ErrorEntryWrites :=
  fun _ _ => ⟨fun first => signalCompletion_first first, fun again => signalCompletion_again again⟩

/-! ### The final states (R202, R203) -/

/-- The decoder and the delivered events are unchanged. -/
def DecodingKept (s t : State) : Prop := t.dec = s.dec ∧ t.host.events = s.host.events

theorem hostCancel_of_final {s : State} (final : s.dec.seg.final = true) : hostCancel s = s := if_pos final

theorem hostEncode_keepsDecoding (e : Encoder) (s : State) : DecodingKept s (hostEncode e s) := ⟨hostEncode_dec e s, hostEncode_events e s⟩

/-- In a final state a host operation that does not construct a decoder keeps the decoding: Feed and Cancel have no effect on it. -/
theorem hostStep_final_keepsDecoding {op : HostOp} {s : State} (final : s.dec.seg.final = true) (noConstruct : op ≠ .construct)
    (noDecodeSync : ∀ bytes, op ≠ .decodeSync bytes) : Ends (DecodingKept s) (hostStep op s) := by
  cases op with
  | construct => exact absurd rfl noConstruct
  | decodeSync bytes => exact absurd rfl (noDecodeSync bytes)
  | feed bytes eos =>
    rw [hostStep, hostFeed_refused eos (.inl final), ends_next]
    exact ⟨rfl, rfl⟩
  | cancel =>
    rw [hostStep, hostCancel_of_final final, ends_next]
    exact ⟨rfl, rfl⟩
  | encode =>
    unfold hostStep
    dsimp only
    split
    · exact (ends_next _ _).2 (hostEncode_keepsDecoding _ s)
    · exact ends_refused _ _
  | getImage | getError | getComment | consumed | constructEncoder => exact (ends_next _ _).2 ⟨rfl, rfl⟩

/-- Settles O43: a running Feed returns, an idle machine stays as it is, and a host operation keeps the decoding. -/
theorem finalStatesAreFinal : Obligations.FinalStatesAreFinal := by
  intro s t final h noConstruction
  cases running : s.host.running with
  | true =>
    cases (step_of_final running final).symm.trans h
    exact ⟨rfl, rfl⟩
  | false =>
    cases pending : s.host.pending with
    | nil =>
      have idle : step s = .next s := by simp [step, running, pending]
      cases idle.symm.trans h
      exact ⟨rfl, rfl⟩
    | cons op ops =>
      obtain ⟨noConstruct, noDecodeSync⟩ := noConstruction running ops
      rw [step_of_pending running pending] at h
      exact hostStep_final_keepsDecoding (s := takeOp ops s) final (fun construct => noConstruct (construct ▸ pending))
        (fun bytes decodeSync => noDecodeSync bytes (decodeSync ▸ pending)) t h

end Sys2Proof.Machine
end
